-- ==== Sys2Proof/Word.lean ====
section
/-! DEFINITION. The element types of the block (00_scope.md R10, R11): bits, bytes and finite sequences of
them. Every integer of the spec is unsigned (R11, R122). -/

namespace Sys2Proof

/-- `Bits`, a finite bit sequence; element 0 is the first one, processed and written first (R10). -/
abbrev Bits := List Bool

/-- A byte, an integer 0 to 255; bit 7 is the most significant (R10, R11). -/
abbrev Byte := BitVec 8

/-- `Bytes`, a finite byte sequence indexed from 0 (R10). -/
abbrev Bytes := List Byte

/-- A transport address. It is opaque: no rule looks inside one (R9, R89; DESIGN CHOICE, log entry 4). -/
abbrev Addr := Nat

end Sys2Proof
end

