-- ==== Sys2Proof/Syntax.lean ====
section
/-! DEFINITION. The operations of the block (`Instr`, one constructor per row of spec/opcode_table.json) and
the transactions of its ports (30_encoding.md R72, R83, R85, R88, R89). -/

namespace Sys2Proof

/-- The sixteen operations of R3: thirteen host operations (rows of R84) with exactly the operands R84 lists
for each, and three wire operations (R80) with the fields of the inbound frame as operands. The type byte of a
wire operation is its constructor. -/
inductive Instr where
  /-- `CRCREG gen data` (R103). -/
  | crcreg (gen : Bits) (data : Bytes)
  /-- `CRCDIV gen msg` (R107). -/
  | crcdiv (gen : Bits) (msg : Bits)
  /-- `CRCENC gen msg` (R110). -/
  | crcenc (gen : Bits) (msg : Bits)
  /-- `CRCVFY gen codeword` (R111). -/
  | crcvfy (gen : Bits) (cw : Bits)
  /-- `DIVTRC gen msg` (R115). -/
  | divtrc (gen : Bits) (msg : Bits)
  /-- `BYTES2B bytes` (R117). -/
  | bytes2b (bytes : Bytes)
  /-- `B2BYTES bits` (R118). -/
  | b2bytes (bits : Bits)
  /-- `CLASSIFY text` (R120). -/
  | classify (text : Bytes)
  /-- `TXT2PAY text` (R133). -/
  | txt2pay (text : Bytes)
  /-- `BLDDATA payload gen seq` (R134). -/
  | blddata (payload : Bytes) (gen : Bits) (seq : BitVec 32)
  /-- `BLDACK seq positive gen` (R135). -/
  | bldack (seq : BitVec 32) (positive : Bool) (gen : Bits)
  /-- `PARSE frame gen` (R136). -/
  | parse (frame : Bytes) (gen : Bits)
  /-- `SEND bytes isText` (R152). -/
  | send (bytes : Bytes) (isText : Bool)
  /-- `RX.DATA` (R173 to R176): type byte 0. -/
  | rxData (version seq : Byte) (length : BitVec 16) (payload : Bytes) (checksum : Byte)
  /-- `RX.ACK` (R177): type byte 1. -/
  | rxAck (version seq : Byte) (length : BitVec 16) (payload : Bytes) (checksum : Byte)
  /-- `RX.NACK` (R177): type byte 2. -/
  | rxNack (version seq : Byte) (length : BitVec 16) (payload : Bytes) (checksum : Byte)
deriving DecidableEq, Repr, Inhabited

/-- The pseudo-operation `BLDNACK seq gen` (R92). -/
def Instr.bldnack (seq : BitVec 32) (gen : Bits) : Instr := .bldack seq false gen

/-- The pseudo-operation `SENDTEXT text` (R92). -/
def Instr.sendtext (text : Bytes) : Instr := .send text true

/-- The pseudo-operation `SENDBYTES payload` (R92). -/
def Instr.sendbytes (payload : Bytes) : Instr := .send payload false

/-- The pseudo-operation `CHECKSUM gen hdr payload` (R92). -/
def Instr.checksum (gen : Bits) (hdr payload : Bytes) : Instr := .crcreg gen (hdr ++ payload)

/-- A `CMD` transaction (R83): the operation selector and the whole operand record. -/
structure Cmd where
  op : Byte
  gen : Bits
  bits : Bits
  bytes : Bytes
  seq : BitVec 32
  flag : Bool
deriving DecidableEq, Repr, Inhabited

/-- What the block decodes (R70): a command of the `CMD` port, or the whole message of an `RX` transaction. -/
inductive Transaction where
  | cmd (c : Cmd)
  | message (m : Bytes)
deriving DecidableEq, Repr, Inhabited

/-- The `fields` record of `PARSE` (R85): 8, 8, 8, 16 bits, a byte sequence, 8 bits. -/
structure Fields where
  version : Byte
  type : Byte
  seq : Byte
  length : BitVec 16
  payload : Bytes
  checksum : Byte
deriving DecidableEq, Repr, Inhabited

/-- A parsed frame as `PARSE` gives it: the fields and the predicate `match` (R136, R38(a)). -/
structure Frame where
  fields : Fields
  matchFlag : Bool
deriving DecidableEq, Repr, Inhabited

/-- A record of the exact-division trace (R116). -/
structure TraceRecord where
  position : Nat
  segment : Bits
  generator : Bits
  result : Bits
deriving DecidableEq, Repr, Inhabited

/-- An `RSP` transaction (R85). -/
structure Rsp where
  status : Byte
  info : Byte
  flag : Bool
  value : Byte
  bits : Bits
  bytes : Bytes
  fields : Fields
  trace : List TraceRecord
deriving DecidableEq, Repr, Inhabited

/-- An `EVT` transaction (R88): an 8-bit code and an 8-bit argument. -/
structure Evt where
  code : Byte
  arg : Byte
deriving DecidableEq, Repr, Inhabited

/-- A transaction the block issues: on `RSP`, `TX`, `UP` or `EVT` (R72, R89). -/
inductive PortOut where
  | rsp (r : Rsp)
  | tx (dest : Addr) (bytes : Bytes)
  | up (payload : Bytes)
  | evt (e : Evt)
deriving DecidableEq, Repr, Inhabited

end Sys2Proof
end

