-- ==== Sys2Proof/Config.lean ====
section
/-! DEFINITION. What the spec fixes as a constant (00_scope.md R8), the parameters it leaves to the model
(R9), the environment's draws (R14, R18, R43), and the free values (log entries 1 and 2). -/

namespace Sys2Proof.Config

/-! ### The constants of R8 -/

/-- `VERSION`, the frame version byte. -/
def version : Byte := 1
/-- `TYPE_DATA`, the type byte of a DATA frame (R75). -/
def typeData : Byte := 0
/-- `TYPE_ACK`, the type byte of an ACK frame (R75). -/
def typeAck : Byte := 1
/-- `TYPE_NACK`, the type byte of a NACK frame (R75). -/
def typeNack : Byte := 2
/-- `HEADER_LEN`, in bytes. -/
def headerLen : Nat := 5
/-- `CHECKSUM_LEN`, in bytes. -/
def checksumLen : Nat := 1
/-- `MIN_FRAME_LEN`: 5-byte header and 1 checksum byte. -/
def minFrameLen : Nat := headerLen + checksumLen
/-- The largest payload the 16-bit length field can express (R77). -/
def maxPayload : Nat := 65535
/-- `GEN_LEN_MIN`, for frame use. -/
def genLenMin : Nat := 1
/-- `GEN_LEN_MAX_FRAME`. -/
def genLenMaxFrame : Nat := 8
/-- `MAX_RETRIES`: total transmissions of one DATA frame, the first included (90_conflicts.md C3). -/
def maxRetries : Nat := 3

/-- The parameters of R9. They are sampled at reset and constant until the next one (R231); `none` is the
spec's "unbounded". -/
structure Params where
  /-- `GEN`, the generator of the `ARQ` unit. -/
  gen : Bits
  /-- `PEER_ADDR`, the destination of every outbound frame (R89). -/
  peerAddr : Addr
  /-- `TICKS_PER_UNIT`, a positive multiple of 5. -/
  ticksPerUnit : Nat
  /-- `RX_CONTEXTS`, how many inbound messages may be in processing at once. -/
  rxContexts : Option Nat
  /-- `BITS_MAX`, the capacity of a bit buffer (R50). -/
  bitsMax : Option Nat
  /-- `BYTES_MAX`, the capacity of a byte buffer (R50). -/
  bytesMax : Option Nat
  /-- `DIV_GEN_MAX`, the longest generator of exact-division mode (R101). -/
  divGenMax : Option Nat
  /-- `HAS_TRACE`, whether `DIVTRC` exists (R115). -/
  hasTrace : Bool
deriving DecidableEq, Repr, Inhabited

/-- The defaults of R9; `GEN` and `PEER_ADDR` have none there and take the values of the spec's examples
(92_eei_decisions.md section 2: `"1011"`, `peer`; DESIGN CHOICE, log entry 3). -/
def Params.default : Params where
  gen := [true, false, true, true]
  peerAddr := 0
  ticksPerUnit := 10
  rxContexts := none
  bitsMax := none
  bytesMax := none
  divGenMax := none
  hasTrace := true

/-- The constraints R9 and 92_eei_decisions.md section 2 put on the parameters (`GEN` has none). -/
def Params.wf (p : Params) : Bool :=
  decide (0 < p.ticksPerUnit) && decide (p.ticksPerUnit % 5 = 0) &&
  p.rxContexts.all (fun n => decide (1 ≤ n)) &&
  p.bytesMax.all (fun n => decide (65541 ≤ n))

/-- The agents inside the block that take steps (R14): the sender, and receive context `RXC[k]`. -/
inductive Agent where
  | sender
  | context (k : Nat)
deriving DecidableEq, Repr, Inhabited

/-- Which step is attempted next. The spec fixes no order between enabled steps of different agents (R13) and
leaves the content and time of every inbound transaction to the environment (R43, R18: draws); a stimulus is
one such choice (log entry 1). A stimulus whose step's guard is false is an attempt that does not happen. -/
inductive Stimulus where
  /-- `HOST` issues a `CMD` transaction. -/
  | cmd (c : Cmd)
  /-- `TRANSPORT` offers a whole inbound message on `RX`, with the peer's address. -/
  | rx (m : Bytes) (peer : Addr)
  /-- `TRANSPORT` answers on `TXS` the `TX` request of the agent `target`; `none` is an answer to a request that
  no agent awaits any more (R232, U20). -/
  | txs (target : Option Agent) (ok : Bool)
  /-- `TIMEBASE` issues a `TICK`. -/
  | tick
  /-- The environment issues `RST`; `p` is what the parameters hold at that moment (R230, R231). -/
  | rst (p : Params)
  /-- An agent inside the block takes its next step, if its guard holds. -/
  | run (a : Agent)
deriving DecidableEq, Repr, Inhabited

/-! ### Free values: constants with no body, of which nothing can be proved (log entries 1 and 2) -/

/-- The environment's draw number `n` (R18, R43; 92_eei_decisions.md section 3): what happens next when no
stimulus has been placed. -/
opaque draw : Nat → Stimulus

/-- What the result fields of `RSP` number `n` hold where the spec gives them no value (R85, U15). -/
opaque freeRsp : Nat → Rsp

/-- What `frame` of a new receive context holds before `X.PARSE` writes it (R37). -/
opaque freeFrame : Nat → Frame

/-- What `isNew` of a new receive context holds before `X.DATA_OK` writes it (R37). -/
opaque freeBit : Nat → Bool

/-- `TIME_UNIT`, the physical duration of one time unit: OPEN, no rule depends on it (R9, U4). -/
opaque timeUnit : Nat

end Sys2Proof.Config
end

