-- ==== Sys2Proof/WellFormed.lean ====
section
/-! DEFINITION. Which instructions are well formed: those an encoding exists for. -/

namespace Sys2Proof

/-- An instruction is well formed when it has an encoding. A host operation always has one: every operand is
a field of the `CMD` record and is used as given (R83). A wire operation has one iff its length field is the
byte count of its payload (R73, R81), which bounds the payload by 65535 bytes (R77). -/
def Instr.wellFormed : Instr → Bool
  | .crcreg _ _ | .crcdiv _ _ | .crcenc _ _ | .crcvfy _ _ | .divtrc _ _ | .bytes2b _ | .b2bytes _
  | .classify _ | .txt2pay _ | .blddata _ _ _ | .bldack _ _ _ | .parse _ _ | .send _ _ => true
  | .rxData _ _ length payload _ => length.toNat == payload.length
  | .rxAck _ _ length payload _ => length.toNat == payload.length
  | .rxNack _ _ length payload _ => length.toNat == payload.length

/-- The wire operations, selected by the type byte of an inbound frame (R3(b), R80). -/
def Instr.isWire : Instr → Bool
  | .crcreg _ _ | .crcdiv _ _ | .crcenc _ _ | .crcvfy _ _ | .divtrc _ _ | .bytes2b _ | .b2bytes _
  | .classify _ | .txt2pay _ | .blddata _ _ _ | .bldack _ _ _ | .parse _ _ | .send _ _ => false
  | .rxData _ _ _ _ _ | .rxAck _ _ _ _ _ | .rxNack _ _ _ _ _ => true

end Sys2Proof
end

