-- ==== Sys2Proof/Decode.lean ====
section
/-! DEFINITION. The decoder of commands (R83, R84, R87) and of inbound frames (R80 to R82), the format part
of `PARSE` they share (R136), and the encoder written from the same tables. -/

namespace Sys2Proof

/-- `MemRead(buf, off, n)`: the big-endian unsigned integer in bytes `buf[off..off+n)` (R12, R53). -/
def memRead (buf : Bytes) (off n : Nat) : Nat :=
  ((buf.drop off).take n).foldl (fun acc b => 256 * acc + b.toNat) 0

/-- `MemWrite` of an `n`-byte integer: its bytes, most significant first (R12, R53). -/
def memBytes : Nat → Nat → Bytes
  | 0, _ => []
  | n + 1, v => BitVec.ofNat 8 (v / 256 ^ n) :: memBytes n v

/-- The two format errors (R82(a), R202). -/
inductive FormatReject where
  /-- A message of fewer than 6 bytes: `FormatError(1)`. -/
  | tooShort
  /-- The length field differs from the payload byte count: `FormatError(2)`. -/
  | lengthMismatch
deriving DecidableEq, Repr, Inhabited

/-- Why an inbound message selects no wire operation. -/
inductive WireReject where
  /-- The message is no frame (R82(a)). -/
  | format (r : FormatReject)
  /-- A type byte 3 to 255 (R82(c)). -/
  | reservedType (t : Byte)
deriving DecidableEq, Repr, Inhabited

/-- Why a transaction names no operation. -/
inductive DecodeError where
  /-- A selector `0x0D` to `0xFF` (R87). -/
  | badOp (op : Byte)
  /-- An inbound message that selects no wire operation. -/
  | wire (r : WireReject)
deriving DecidableEq, Repr, Inhabited

/-- The format part of `PARSE` (R136 less the generator): the two format checks in the order of R137, and the
fields of the frame map of R56. -/
def parseFields (f : Bytes) : Except FormatReject Fields :=
  if f.length < Config.minFrameLen then .error .tooShort
  else
    let payload := (f.drop Config.headerLen).take (f.length - Config.minFrameLen)
    let length := memRead f 3 2
    if length ≠ payload.length then .error .lengthMismatch
    else .ok
      { version := f.getD 0 0
        type := f.getD 1 0
        seq := f.getD 2 0
        length := BitVec.ofNat 16 length
        payload := payload
        checksum := f.getD (f.length - 1) 0 }

/-- The operation a well-formed frame selects: by the type byte alone (R80, R172). -/
def selectWire (f : Fields) : Except WireReject Instr :=
  if f.type = Config.typeData then .ok (.rxData f.version f.seq f.length f.payload f.checksum)
  else if f.type = Config.typeAck then .ok (.rxAck f.version f.seq f.length f.payload f.checksum)
  else if f.type = Config.typeNack then .ok (.rxNack f.version f.seq f.length f.payload f.checksum)
  else .error (.reservedType f.type)

/-- Decoding an inbound message (R80, R81, R82). -/
def decodeMessage (m : Bytes) : Except WireReject Instr :=
  match parseFields m with
  | .error e => .error (.format e)
  | .ok f => selectWire f

/-- Decoding a command: the selector table of R84, each operation with the operands it lists and no others. -/
def decodeCmd (c : Cmd) : Except DecodeError Instr :=
  match c.op.toNat with
  | 0x00 => .ok (.crcreg c.gen c.bytes)
  | 0x01 => .ok (.crcdiv c.gen c.bits)
  | 0x02 => .ok (.crcenc c.gen c.bits)
  | 0x03 => .ok (.crcvfy c.gen c.bits)
  | 0x04 => .ok (.divtrc c.gen c.bits)
  | 0x05 => .ok (.bytes2b c.bytes)
  | 0x06 => .ok (.b2bytes c.bits)
  | 0x07 => .ok (.classify c.bytes)
  | 0x08 => .ok (.txt2pay c.bytes)
  | 0x09 => .ok (.blddata c.bytes c.gen c.seq)
  | 0x0A => .ok (.bldack c.seq c.flag c.gen)
  | 0x0B => .ok (.parse c.bytes c.gen)
  | 0x0C => .ok (.send c.bytes c.flag)
  | _ => .error (.badOp c.op)

/-- The decoder: total on every command and on every byte sequence. -/
def decode : Transaction → Except DecodeError Instr
  | .cmd c => decodeCmd c
  | .message m =>
    match decodeMessage m with
    | .ok i => .ok i
    | .error e => .error (.wire e)

/-- The bytes of a frame from its fields (R73): header, payload, checksum byte. -/
def frameBytes (version type seq : Byte) (length : BitVec 16) (payload : Bytes) (checksum : Byte) : Bytes :=
  [version, type, seq] ++ memBytes 2 length.toNat ++ payload ++ [checksum]

/-- A `CMD` record whose operands are all empty or zero; the encoder fills in the listed ones. -/
def blankCmd (op : Byte) : Cmd :=
  { op := op, gen := [], bits := [], bytes := [], seq := 0, flag := false }

/-- The encoder, from the same tables (R73, R80, R84). An operand an operation does not list is left empty or
zero; the decoder ignores it whatever it holds (R87). -/
def encode : Instr → Transaction
  | .crcreg gen data => .cmd { blankCmd 0x00 with gen := gen, bytes := data }
  | .crcdiv gen msg => .cmd { blankCmd 0x01 with gen := gen, bits := msg }
  | .crcenc gen msg => .cmd { blankCmd 0x02 with gen := gen, bits := msg }
  | .crcvfy gen cw => .cmd { blankCmd 0x03 with gen := gen, bits := cw }
  | .divtrc gen msg => .cmd { blankCmd 0x04 with gen := gen, bits := msg }
  | .bytes2b bytes => .cmd { blankCmd 0x05 with bytes := bytes }
  | .b2bytes bits => .cmd { blankCmd 0x06 with bits := bits }
  | .classify text => .cmd { blankCmd 0x07 with bytes := text }
  | .txt2pay text => .cmd { blankCmd 0x08 with bytes := text }
  | .blddata payload gen seq => .cmd { blankCmd 0x09 with bytes := payload, gen := gen, seq := seq }
  | .bldack seq positive gen => .cmd { blankCmd 0x0A with seq := seq, flag := positive, gen := gen }
  | .parse frame gen => .cmd { blankCmd 0x0B with bytes := frame, gen := gen }
  | .send bytes isText => .cmd { blankCmd 0x0C with bytes := bytes, flag := isText }
  | .rxData v q n p c => .message (frameBytes v Config.typeData q n p c)
  | .rxAck v q n p c => .message (frameBytes v Config.typeAck q n p c)
  | .rxNack v q n p c => .message (frameBytes v Config.typeNack q n p c)

/-- The transaction of a word numbered as spec/opcode_table.json numbers it. A row of up to 8 bits is a `CMD`
row: the word is `CMD.op` and every other operand is empty or zero. A wider row is a `FRAME` row: the word is
the 40-bit header `H` of R80 (version in bits 39..32), followed by as many zero payload bytes as its length
field says and a zero checksum byte (log entry 5). -/
def tableTransaction (nbits w : Nat) : Transaction :=
  if nbits ≤ 8 then .cmd (blankCmd (BitVec.ofNat 8 w))
  else .message (memBytes 5 w ++ List.replicate (w % 65536) 0 ++ [0])

/-- The instruction the decoder reads from a word of spec/opcode_table.json. -/
def decodeTableWord (nbits w : Nat) : Option Instr :=
  match decode (tableTransaction nbits w) with
  | .ok i => some i
  | .error _ => none

end Sys2Proof
end

