-- ==== Sys2Proof/Machine/State.lean ====
section
/-! DEFINITION. The state of the block (10_state.md R20, R26 to R37), its reset (R41, R231), and the reasons a
step can stop. The transient working registers `R` and `W` (R21, R22) exist only inside one evaluation and are
the local values of `regRem` and `longDiv` in Machine/Crce.lean. -/

namespace Sys2Proof.Machine

/-- Why a step stops with a fault. -/
inductive Fault where
  /-- Raised by the meanings of `RX.DATA`, `RX.ACK` and `RX.NACK` in a state whose `cur` names no receive
  context: a wire operation is a sequence of steps of a context (R171), so no step is enabled. `step` never
  raises it, since it selects an existing context first. Safe (log entry 7). -/
  | noContext
deriving DecidableEq, Repr

/-- Why a step is refused. -/
inductive Refusal where
  /-- Raised by an arm of `exec` whose instruction has no meaning yet; no arm is such. Safe. -/
  | notModelled (mnemonic : String)
  /-- Raised when an operand or an inbound message exceeds a finite `BITS_MAX` or `BYTES_MAX`
  (93_implementation_defined.md U17: refuse), or when the working buffer or the result of an operation that
  raises no error does (R50, 92_eei_decisions.md D28: outside the spec). Safe (log entry 8). -/
  | overCapacity
deriving DecidableEq, Repr

/-- `CFG_GEN`, the generator configuration (R26). -/
structure CfgGen where
  len : Nat
  bits : Bits
deriving DecidableEq, Repr, Inhabited

/-- The values of `WS.result` (R29). -/
inductive SlotResult where
  | pending | acked | nacked | timedOut | failed
deriving DecidableEq, Repr, Inhabited

/-- `WS`, the wait-slot register (R29). -/
structure WaitSlot where
  valid : Bool
  seq : Byte
  result : SlotResult
  signal : Bool
deriving DecidableEq, Repr, Inhabited

/-- The values of `PR.outcome` (R30). -/
inductive SendOutcome where
  | none | success | exhausted | sendError
deriving DecidableEq, Repr, Inhabited

/-- `PR`, the pending request (R30). -/
structure PendingRequest where
  seq : Byte
  frame : Bytes
  retriesUsed : BitVec 2
  txPending : Bool
  outcome : SendOutcome
deriving DecidableEq, Repr, Inhabited

/-- The values of `PHASE`, the sender state register (R31). -/
inductive Phase where
  | idle | sending | awaitingAck | pausing | acked | failed
deriving DecidableEq, Repr, Inhabited

/-- The values of `RXC[k].step` (R37). -/
inductive CtxStep where
  | parse | nack | nackWait | testInsert | deliver | ack | ackWait | ackNack | done
deriving DecidableEq, Repr, Inhabited

/-- `RXC[k]`, a receive context (R37). -/
structure Context where
  bytes : Bytes
  peer : Addr
  step : CtxStep
  frame : Frame
  isNew : Bool
deriving DecidableEq, Repr, Inhabited

/-- The machine. The fields from `cfgGen` to `rxc` are the block's registers (R20); `params` holds the
parameters sampled at reset (R9, R231); the last four are the model's own (log entries 1, 2 and 6). -/
structure State where
  /-- The parameters of R9, sampled at reset (R231). -/
  params : Config.Params
  /-- `CFG_GEN` (R26). -/
  cfgGen : CfgGen
  /-- `CFG_FAULT`, one bit (R27). -/
  cfgFault : Bool
  /-- `SEQ_CTR`, 8 bits (R28). -/
  seqCtr : Byte
  /-- `WS` (R29). -/
  ws : WaitSlot
  /-- `PR` (R30). -/
  pr : PendingRequest
  /-- `PHASE` (R31). -/
  phase : Phase
  /-- `PAUSE_KIND`, one bit: 1 after a NACK, 0 after a timeout (R32). -/
  pauseKind : Bool
  /-- `TIMER`, an unsigned down-counter wide enough for `ACK_TIMEOUT_TICKS` (R33). -/
  timer : Nat
  /-- `DELIVERED`, 256 bits (R36). -/
  delivered : BitVec 256
  /-- The receive contexts in processing, each with its index `k`, indexes strictly rising (R37). -/
  rxc : List (Nat × Context)
  /-- The model's own: the index of the receive context whose step is being taken. -/
  cur : Nat
  /-- The model's own: the stimuli placed by the environment, the next one first. -/
  sched : List Config.Stimulus
  /-- The model's own: the transactions the block has issued on `RSP`, `TX`, `UP` and `EVT`, oldest first. -/
  out : List PortOut
  /-- The model's own: how many free values and draws have been used. -/
  free : Nat
deriving DecidableEq, Repr, Inhabited

/-- The state after a reset that samples the parameters `p` (R41, R231): the table's values; the fields the
table calls unspecified are zero (U14; DESIGN CHOICE, log entry 9). -/
def State.resetWith (p : Config.Params) : State where
  params := p
  cfgGen := { len := p.gen.length, bits := p.gen }
  cfgFault := decide (p.gen.length < Config.genLenMin ∨ Config.genLenMaxFrame < p.gen.length)
  seqCtr := 0
  ws := { valid := false, seq := 0, result := .pending, signal := false }
  pr := { seq := 0, frame := [], retriesUsed := 0, txPending := false, outcome := .none }
  phase := .idle
  pauseKind := false
  timer := 0
  delivered := 0
  rxc := []
  cur := 0
  sched := []
  out := []
  free := 0

/-- The machine right after reset with the default parameters, nothing placed and nothing issued (R230). -/
def State.reset : State := State.resetWith Config.Params.default

end Sys2Proof.Machine
end

