-- ==== Sys2Proof/Machine/Operands.lean ====
section
/-! DEFINITION. Operand forms: the integers of bit sequences (00_scope.md R11), packing and unpacking
(40_crc_engine.md R117, R118), the bits of a raw text (R121), the generator checks (R101), the tick counts
(00_scope.md R9) and the capacity checks (20_memory.md R50). -/

namespace Sys2Proof.Machine

open Sys2Proof

/-- `val(b)`: the unsigned integer whose most significant bit is `b[0]` (R11). -/
def val (b : Bits) : Nat := b.foldl (fun acc x => 2 * acc + x.toNat) 0

/-- `bitsN(n, v)`: the `n` bits of `v`, element `i` being `v[n-1-i]` (R11). -/
def bitsN (n v : Nat) : Bits := (List.range n).map fun i => v.testBit (n - 1 - i)

/-- `0^k` (R10). -/
def zeros (k : Nat) : Bits := List.replicate k false

/-- The eight bits of a byte, most significant first (R52). -/
def byteBits (b : Byte) : Bits := bitsN 8 b.toNat

/-- `BYTES2B` (R117): bit `8*i + j` of the result is bit `7 - j` of byte `i`. -/
def bytesToBits (bs : Bytes) : Bits := bs.flatMap byteBits

/-- The number of padding bits of `B2BYTES`, 0 to 7 (R118). -/
def padLen (n : Nat) : Nat := (8 - n % 8) % 8

/-- `B2BYTES` (R118): the bits are padded with zeros on the right to a multiple of 8, then byte `i` is
`val(p[8*i .. 8*i+8))`. -/
def bitsToBytes (b : Bits) : Bytes :=
  let p := b ++ zeros (padLen b.length)
  (List.range (p.length / 8)).map fun i => BitVec.ofNat 8 (val ((p.drop (8 * i)).take 8))

/-- A text with every byte 0x20 removed (R120). -/
def removeSpaces (t : Bytes) : Bytes := t.filter (fun b => b != 0x20)

/-- `RawBits(t)` (R121): after removing spaces, bit 0 for 0x30 and bit 1 for 0x31. -/
def rawBits (t : Bytes) : Bits := (removeSpaces t).map fun b => b == 0x31

/-- `FrameGenOK(gen)` (R101): the length check of register mode and of every frame operation. -/
def frameGenOK (gen : Bits) : Bool :=
  decide (Config.genLenMin ≤ gen.length) && decide (gen.length ≤ Config.genLenMaxFrame)

/-- Whether a length is within a capacity; `none` is unbounded (R9, R50). -/
def within (limit : Option Nat) (n : Nat) : Bool := limit.all (fun m => decide (n ≤ m))

/-- `DivGenOK(gen)` (R101): non-empty, first bit 1, at most `DIV_GEN_MAX` bits. -/
def divGenOK (p : Config.Params) (gen : Bits) : Bool := gen.headD false && within p.divGenMax gen.length

/-- `ACK_TIMEOUT_TICKS = 2 * TICKS_PER_UNIT` (R9). -/
def ackTimeoutTicks (p : Config.Params) : Nat := 2 * p.ticksPerUnit

/-- `RETRY_PAUSE_TICKS = TICKS_PER_UNIT / 5` (R9). -/
def retryPauseTicks (p : Config.Params) : Nat := p.ticksPerUnit / 5

/-- Whether bit buffers of up to `nbits` bits and byte buffers of up to `nbytes` bytes fit (R50, U17). -/
def buffersFit (p : Config.Params) (nbits nbytes : Nat) : Bool :=
  within p.bitsMax nbits && within p.bytesMax nbytes

end Sys2Proof.Machine
end

