-- ==== Sys2Proof/Machine/Flags.lean ====
section
/-! DEFINITION. The one-bit predicates of the block (10_state.md R38), and the codes the block puts on its
ports: statuses (30_encoding.md R86), events (R88), and the encodings of the internal enumerations (D5). -/

namespace Sys2Proof.Machine

open Sys2Proof

/-! ### Predicates -/

/-- `match` (R38(a), R136): the recomputed checksum equals the whole received byte (D16). -/
def matchFlag (computed received : Byte) : Bool := computed == received

/-- `isRaw` (R38(c), R120): after removing spaces the text is non-empty and every byte is 0x30 or 0x31. -/
def isRaw (t : Bytes) : Bool :=
  let t' := removeSpaces t
  !t'.isEmpty && t'.all (fun b => b == 0x30 || b == 0x31)

/-- `ok` (R38(d), R111): the remainder is all zero. -/
def allZero (rem : Bits) : Bool := rem.all (fun b => !b)

/-! ### Status codes of `RSP` -/

/-- The statuses of R86. -/
inductive Status where
  | ok | configError | formatError | lengthError | sendError | exhausted | busy | badOp
deriving DecidableEq, Repr, Inhabited

/-- The status codes of R86. -/
def statusCode : Status → Byte
  | .ok => 0x00
  | .configError => 0x01
  | .formatError => 0x02
  | .lengthError => 0x03
  | .sendError => 0x04
  | .exhausted => 0x05
  | .busy => 0x06
  | .badOp => 0x07

/-- An error `E(info)` (R200): the status and the sub-code that qualifies it, 0 when unused (R85). -/
structure Err where
  status : Status
  info : Byte
deriving DecidableEq, Repr, Inhabited

/-- `ConfigError(1)`: a generator length outside 1..8 in frame use (R201). -/
def errFrameGen : Err := { status := .configError, info := 1 }
/-- `ConfigError(2)`: an empty, too long, or leading-0 generator in exact-division use (R201). -/
def errDivGen : Err := { status := .configError, info := 2 }
/-- `FormatError(1)`: fewer than 6 bytes (R202). -/
def errShort : Err := { status := .formatError, info := 1 }
/-- `FormatError(2)`: the length field differs from the payload byte count (R202). -/
def errLengthField : Err := { status := .formatError, info := 2 }
/-- `LengthError`: a payload of more than 65535 bytes (R203). -/
def errLength : Err := { status := .lengthError, info := 0 }
/-- `SendError`: the transport refused a DATA transmission (R204). -/
def errSend : Err := { status := .sendError, info := 0 }
/-- `Exhausted`, `info = 3` (R205). -/
def errExhausted : Err := { status := .exhausted, info := 3 }
/-- `Busy`: a `SEND` while `PHASE` is not `Idle` (R206). -/
def errBusy : Err := { status := .busy, info := 0 }
/-- `BadOp`: the selector names no operation (R207). -/
def errBadOp : Err := { status := .badOp, info := 0 }

/-! ### Event codes of `EVT` -/

/-- `EV_CHECKSUM_FAIL(seq)` (R88, R222). -/
def evChecksumFail (seq : Byte) : Evt := { code := 0x01, arg := seq }
/-- `EV_FORMAT(info)` (R88, R222). -/
def evFormat (info : Byte) : Evt := { code := 0x02, arg := info }
/-- `EV_RESERVED_TYPE(type)` (R88, R222). -/
def evReservedType (t : Byte) : Evt := { code := 0x03, arg := t }
/-- `EV_REPLY_TX_FAIL(seq)` (R88, R222). -/
def evReplyTxFail (seq : Byte) : Evt := { code := 0x04, arg := seq }
/-- `EV_CONFIG(1)` (R88, R222). -/
def evConfig : Evt := { code := 0x05, arg := 1 }

/-! ### Encodings of the internal enumerations, seen on no port -/

/-- The 3-bit encoding of `PHASE` (R31). -/
def phaseCode : Phase → BitVec 3
  | .idle => 0
  | .sending => 1
  | .awaitingAck => 2
  | .pausing => 3
  | .acked => 4
  | .failed => 5

/-- The 3-bit encoding of `WS.result` (R29). -/
def slotResultCode : SlotResult → BitVec 3
  | .pending => 0
  | .acked => 1
  | .nacked => 2
  | .timedOut => 3
  | .failed => 4

end Sys2Proof.Machine
end

