-- ==== Sys2Proof/Machine/Ops.lean ====
section
/-! DEFINITION. The named operations over the registers and the ports: issuing a transaction, answering a
command, raising an error (60_exceptions.md R200), the receive contexts (10_state.md R37), the wait-slot
lookup (42_arq_session.md R177), the delivered-set (R174) and reset (70_reset_and_hazards.md R231). -/

namespace Sys2Proof.Machine

open Sys2Proof

/-! ### Issuing transactions -/

/-- Issue a transaction on an outward port. -/
def State.emit (s : State) (o : PortOut) : State := { s with out := s.out ++ [o] }

/-- Issue an `RSP` transaction; what `fill` leaves alone holds a free value (R85, log entry 2). -/
def State.respond (s : State) (fill : Rsp → Rsp) : State :=
  { s with out := s.out ++ [.rsp (fill (Config.freeRsp s.free))], free := s.free + 1 }

/-- Answer a command with `OK` and the results `fill` writes (R85, R86). -/
def State.answer (s : State) (fill : Rsp → Rsp) : State :=
  s.respond fun r => { fill r with status := statusCode .ok, info := 0 }

/-- Raise `E(info)` in a host operation (R200, R212): `RSP{status = E, info}` and nothing else. There is no
handler, nothing is saved and no mode changes; there is no return (R214). -/
def State.raise (s : State) (e : Err) : State :=
  s.respond fun r => { r with status := statusCode e.status, info := e.info }

/-- The buffers of an operation beside its operands (R50): the working buffer and the result, in bits and in
bytes. They exist only when the operation has raised no error. -/
structure Work where
  nbits : Nat
  nbytes : Nat
deriving DecidableEq, Repr, Inhabited

/-- No buffer beside the operands that a capacity could stop: `CRCREG` takes the bits of its data one at a time
(R58), and a frame has at most 65541 bytes, which every finite `BYTES_MAX` holds (92_eei_decisions.md section 2). -/
def noWork : Work := { nbits := 0, nbytes := 0 }

/-- A pure host operation (R23, R40) whose operands have up to `nbits` bits and `nbytes` bytes: it ends with its
results or with its error, and touches no register. Operands beyond a finite capacity are outside the spec (U17).
An error is raised before any further buffer exists (R101, R107, R200), and the buffers `work` of an operation that
raises none are held to the capacity last (R50, D28; log entries 8 and 18). -/
def pureOp (s : State) (nbits nbytes : Nat) (work : Work) (r : Except Err (Rsp → Rsp)) :
    Host.Outcome State Fault Refusal :=
  if buffersFit s.params nbits nbytes then
    match r with
    | .error e => .next (s.raise e)
    | .ok fill =>
      if buffersFit s.params work.nbits work.nbytes then .next (s.answer fill) else .refused .overCapacity
  else .refused .overCapacity

/-! ### Receive contexts -/

/-- The context with index `k` in a list of contexts. -/
def lookupContext (k : Nat) : List (Nat × Context) → Option Context
  | [] => none
  | (j, c) :: rest => if j = k then some c else lookupContext k rest

/-- The list with context `k` set to `c`, indexes kept rising. -/
def insertContext (k : Nat) (c : Context) : List (Nat × Context) → List (Nat × Context)
  | [] => [(k, c)]
  | (j, d) :: rest =>
    if k < j then (k, c) :: (j, d) :: rest
    else if k = j then (k, c) :: rest
    else (j, d) :: insertContext k c rest

/-- The list without context `k`. -/
def eraseContext (k : Nat) : List (Nat × Context) → List (Nat × Context)
  | [] => []
  | (j, d) :: rest => if j = k then rest else (j, d) :: eraseContext k rest

/-- The least index from `n` on that a rising list of contexts does not use (log entry 6). -/
def freshContext : Nat → List (Nat × Context) → Nat
  | n, [] => n
  | n, (j, _) :: rest => if j = n then freshContext (n + 1) rest else n

/-- `RXC[k]`, if that context exists. -/
def State.context (s : State) (k : Nat) : Option Context := lookupContext k s.rxc

/-- Write `RXC[k]`. A context whose `step` becomes `Done` ceases to exist (R170). -/
def State.putContext (s : State) (k : Nat) (c : Context) : State :=
  if c.step = .done then { s with rxc := eraseContext k s.rxc }
  else { s with rxc := insertContext k c s.rxc }

/-- End context `k` (R170). -/
def State.endContext (s : State) (k : Nat) : State := { s with rxc := eraseContext k s.rxc }

/-- A context created for the message `m` (R170): `step = Parse`; `frame` and `isNew` are unwritten and hold
free values (R37, log entry 2). -/
def newContext (m : Bytes) (peer : Addr) (n : Nat) : Context :=
  { bytes := m, peer := peer, step := .parse, frame := Config.freeFrame n, isNew := Config.freeBit n }

/-- Create a context for the message `m` under the least free index. -/
def State.createContext (s : State) (m : Bytes) (peer : Addr) : State :=
  { s with
    rxc := insertContext (freshContext 0 s.rxc) (newContext m peer s.free) s.rxc
    free := s.free + 1 }

/-! ### The wait-slot and the delivered-set -/

/-- Store a reply in the wait-slot of sequence number `seq` and set its signal, if that slot is registered;
else nothing (R177). -/
def State.storeReply (s : State) (seq : Byte) (r : SlotResult) : State :=
  if s.ws.valid && s.ws.seq == seq then { s with ws := { s.ws with result := r, signal := true } } else s

/-- `DELIVERED[seq]` (R12, R36). -/
def State.isDelivered (s : State) (seq : Byte) : Bool := s.delivered.getLsbD seq.toNat

/-- `DELIVERED[seq] <- 1` (R36, R174). -/
def State.markDelivered (s : State) (seq : Byte) : State :=
  { s with delivered := s.delivered ||| BitVec.twoPow 256 seq.toNat }

/-! ### Reset -/

/-- `Z.RESET` (R231, R232): every register takes its reset value, the parameters are sampled, a `SEND` in
progress and the receive contexts are gone. What the environment holds stays (R236): the transactions issued,
the stimuli placed, the draws used. -/
def State.zReset (s : State) (p : Config.Params) : State :=
  { State.resetWith p with sched := s.sched, out := s.out, free := s.free }

end Sys2Proof.Machine
end

