-- ==== Sys2Proof/Machine/Crce.lean ====
section
/-! DEFINITION. The CRC polynomial engine `CRCE` (40_crc_engine.md): register mode, exact-division mode, the
step trace, packing and classification, and the meanings of its eight host operations. The two modes are
different algorithms and are defined apart (R114). -/

namespace Sys2Proof.Machine

open Sys2Proof

/-! ### Register mode -/

/-- `RegStep` (R102): the top bit is captured before the shift, the new bit enters at bit 0, and the generator
is XORed in iff the captured bit was 1. -/
def regStep (n gv r : Nat) (b : Bool) : Nat :=
  let top := r.testBit (n - 1)
  let r1 := ((r <<< 1) ||| b.toNat) &&& (2 ^ n - 1)
  if top then r1 ^^^ gv else r1

/-- `RegRem` (R103): the shift register `R` (R21) starts at 0 and takes the bits in order; no padding bits
are appended. -/
def regRem (gen bits : Bits) : Nat := bits.foldl (regStep gen.length (val gen)) 0

/-- `CRCREG` (R103): the generator check, then the remainder of the bits of the data. -/
def crcReg (gen : Bits) (data : Bytes) : Except Err Byte :=
  if frameGenOK gen then .ok (BitVec.ofNat 8 (regRem gen (bytesToBits data))) else .error errFrameGen

/-- The meaning of `CRCREG` (R103): `value` is the n-bit remainder. -/
def execCrcreg (gen : Bits) (data : Bytes) (s : State) : Host.Outcome State Fault Refusal :=
  pureOp s gen.length data.length noWork <| (crcReg gen data).map fun v r => { r with value := v }

/-! ### Exact-division mode -/

/-- Bitwise exclusive or of `g` onto the first bits of a sequence. -/
def xorOnto : Bits → Bits → Bits
  | g :: gs, b :: bs => (b ^^ g) :: xorOnto gs bs
  | _, w => w

/-- XOR of the window of `W` that starts at position `i` with the generator (R106). -/
def xorWindow (gen w : Bits) (i : Nat) : Bits := w.take i ++ xorOnto gen (w.drop i)

/-- One position of `LongDiv` (R106): the window is XORed iff its current first bit is 1. -/
def divStep (gen w : Bits) (i : Nat) : Bits := if w.getD i false then xorWindow gen w i else w

/-- `LongDiv` (R106): the positions `0` to `L - 1` in increasing order, on a copy `W` (R22) of the buffer. -/
def longDiv (gen w : Bits) : Bits := (List.range (w.length - (gen.length - 1))).foldl (divStep gen) w

/-- `ExactRem` (R107): `n - 1` zero bits are appended, and the last `n - 1` bits of the divided buffer are
the remainder. -/
def exactRem (gen msg : Bits) : Bits :=
  ((longDiv gen (msg ++ zeros (gen.length - 1))).drop msg.length).take (gen.length - 1)

/-- `CRCDIV` (R107). -/
def crcDiv (p : Config.Params) (gen msg : Bits) : Except Err Bits :=
  if divGenOK p gen then .ok (exactRem gen msg) else .error errDivGen

/-- `CRCENC` (R110): the message followed by its remainder. -/
def crcEnc (p : Config.Params) (gen msg : Bits) : Except Err Bits :=
  if divGenOK p gen then .ok (msg ++ exactRem gen msg) else .error errDivGen

/-- `CRCVFY` (R111): the verdict and the remainder of the codeword, computed by the same procedure, zero-append
included (D24). -/
def crcVfy (p : Config.Params) (gen cw : Bits) : Except Err (Bool × Bits) :=
  if divGenOK p gen then .ok (allZero (exactRem gen cw), exactRem gen cw) else .error errDivGen

/-- One position of `DIVTRC` (R115): as `LongDiv`, with one record per XOR performed (R116). -/
def traceStep (gen : Bits) (st : Bits × List TraceRecord) (i : Nat) : Bits × List TraceRecord :=
  if st.1.getD i false then
    let seg := (st.1.drop i).take gen.length
    let res := List.zipWith (· ^^ ·) seg gen
    (st.1.take i ++ res ++ st.1.drop (i + gen.length),
      st.2 ++ [{ position := i, segment := seg, generator := gen, result := res }])
  else st

/-- The division of `DIVTRC` (R115): the final buffer and the trace. -/
def divTrace (gen msg : Bits) : Bits × List TraceRecord :=
  (List.range msg.length).foldl (traceStep gen) (msg ++ zeros (gen.length - 1), [])

/-- `DIVTRC` (R115) where it exists: the generator check, then the trace and the remainder. -/
def divTrc (p : Config.Params) (gen msg : Bits) : Except Err (List TraceRecord × Bits) :=
  if divGenOK p gen then
    .ok ((divTrace gen msg).2, ((divTrace gen msg).1.drop msg.length).take (gen.length - 1))
  else .error errDivGen

/-- The larger operand of an exact division, in bits (R50). -/
def divOperands (gen msg : Bits) : Nat := max gen.length msg.length

/-- The working buffer `W` of an exact division, `len(msg) + n - 1` bits (R22, R50); a codeword is as long. -/
def divWork (gen msg : Bits) : Work := { nbits := msg.length + (gen.length - 1), nbytes := 0 }

/-- The meaning of `CRCDIV` (R107): `bits` is the remainder. -/
def execCrcdiv (gen msg : Bits) (s : State) : Host.Outcome State Fault Refusal :=
  pureOp s (divOperands gen msg) 0 (divWork gen msg) <|
    (crcDiv s.params gen msg).map fun rem r => { r with bits := rem }

/-- The meaning of `CRCENC` (R110): `bits` is the codeword. -/
def execCrcenc (gen msg : Bits) (s : State) : Host.Outcome State Fault Refusal :=
  pureOp s (divOperands gen msg) 0 (divWork gen msg) <|
    (crcEnc s.params gen msg).map fun cw r => { r with bits := cw }

/-- The meaning of `CRCVFY` (R111): `flag` is `ok`, `bits` is the remainder. -/
def execCrcvfy (gen cw : Bits) (s : State) : Host.Outcome State Fault Refusal :=
  pureOp s (divOperands gen cw) 0 (divWork gen cw) <|
    (crcVfy s.params gen cw).map fun v r => { r with flag := v.1, bits := v.2 }

/-- The meaning of `DIVTRC` (R115): `trace` is the sequence of records, `bits` is the remainder. When `HAS_TRACE`
is false the selector names no operation: `BadOp`, whatever the operands hold (R86, R207, R210). -/
def execDivtrc (gen msg : Bits) (s : State) : Host.Outcome State Fault Refusal :=
  if s.params.hasTrace then
    pureOp s (divOperands gen msg) 0 (divWork gen msg) <|
      (divTrc s.params gen msg).map fun v r => { r with trace := v.1, bits := v.2 }
  else .next (s.raise errBadOp)

/-! ### Packing, unpacking and classification -/

/-- The meaning of `BYTES2B` (R117): `bits`, eight per byte. -/
def execBytes2b (bytes : Bytes) (s : State) : Host.Outcome State Fault Refusal :=
  pureOp s 0 bytes.length { nbits := 8 * bytes.length, nbytes := 0 } <|
    .ok fun r => { r with bits := bytesToBits bytes }

/-- The meaning of `B2BYTES` (R118): `bytes`, the last one zero-padded. -/
def execB2bytes (bits : Bits) (s : State) : Host.Outcome State Fault Refusal :=
  pureOp s bits.length 0 { nbits := 0, nbytes := (bits.length + 7) / 8 } <|
    .ok fun r => { r with bytes := bitsToBytes bits }

/-- The meaning of `CLASSIFY` (R120): `flag` is `isRaw`. -/
def execClassify (text : Bytes) (s : State) : Host.Outcome State Fault Refusal :=
  pureOp s 0 text.length noWork <| .ok fun r => { r with flag := isRaw text }

end Sys2Proof.Machine
end

