-- ==== Sys2Proof/Machine/Fcodec.lean ====
section
/-! DEFINITION. The frame codec `FCODEC` (41_frame_codec.md): the header, the checksum byte, building and
parsing frames, and the meanings of its four host operations. Of `CRCE` it uses register mode, `CLASSIFY` and
`B2BYTES`, and never exact-division mode (R130). -/

namespace Sys2Proof.Machine

open Sys2Proof

/-- `Header(t, seq, L)` (R131): version, type, `seq mod 256`, and the length, big-endian. -/
def header (t : Byte) (seq len : Nat) : Bytes :=
  [Config.version, t, BitVec.ofNat 8 (seq % 256)] ++ memBytes 2 len

/-- `Checksum(gen, d)` (R132): the register-mode remainder in the low n bits of one byte. -/
def checksum (gen : Bits) (d : Bytes) : Byte :=
  BitVec.ofNat 8 (regRem gen (bytesToBits d) &&& (2 ^ gen.length - 1))

/-- The DATA frame of a payload of at most 65535 bytes (R134, R73). -/
def dataFrame (gen : Bits) (payload : Bytes) (seq : Nat) : Bytes :=
  let h := header Config.typeData seq payload.length
  h ++ payload ++ [checksum gen (h ++ payload)]

/-- The ACK or NACK frame (R135): always 6 bytes, no payload. -/
def ackFrame (gen : Bits) (seq : Nat) (positive : Bool) : Bytes :=
  let h := header (if positive then Config.typeAck else Config.typeNack) seq 0
  h ++ [checksum gen h]

/-- `TXT2PAY` (R133): a raw-bit text is packed; everything else passes through, bytes unchanged. -/
def textToPayload (t : Bytes) : Bytes := if isRaw t then bitsToBytes (rawBits t) else t

/-- `BLDDATA` (R134): the generator check, then the length check, then the frame. -/
def bldData (gen : Bits) (payload : Bytes) (seq : Nat) : Except Err Bytes :=
  if !frameGenOK gen then .error errFrameGen
  else if Config.maxPayload < payload.length then .error errLength
  else .ok (dataFrame gen payload seq)

/-- `BLDACK` (R135). -/
def bldAck (gen : Bits) (seq : Nat) (positive : Bool) : Except Err Bytes :=
  if !frameGenOK gen then .error errFrameGen else .ok (ackFrame gen seq positive)

/-- The header bytes `h` of a parsed frame (R56). -/
def fieldsHeader (f : Fields) : Bytes := [f.version, f.type, f.seq] ++ memBytes 2 f.length.toNat

/-- A parsed frame with its predicate `match` (R136, R38(a)): `Checksum(gen, h ‖ payload) = checksum`. -/
def checkFrame (gen : Bits) (f : Fields) : Frame :=
  { fields := f, matchFlag := matchFlag (checksum gen (fieldsHeader f ++ f.payload)) f.checksum }

/-- The error of a format rejection (R202). -/
def formatErr : FormatReject → Err
  | .tooShort => errShort
  | .lengthMismatch => errLengthField

/-- `PARSE` (R136, R137): the generator, then the two format checks, and last the checksum, whose mismatch is
no error. -/
def parseFrame (gen : Bits) (f : Bytes) : Except Err Frame :=
  if !frameGenOK gen then .error errFrameGen
  else
    match parseFields f with
    | .error e => .error (formatErr e)
    | .ok fields => .ok (checkFrame gen fields)

/-- The meaning of `TXT2PAY` (R133): `bytes` is the payload. -/
def execTxt2pay (text : Bytes) (s : State) : Host.Outcome State Fault Refusal :=
  pureOp s 0 text.length noWork <| .ok fun r => { r with bytes := textToPayload text }

/-- The meaning of `BLDDATA` (R134): `bytes` is the frame; `seq` is used modulo 256 (R76). -/
def execBlddata (payload : Bytes) (gen : Bits) (seq : BitVec 32) (s : State) :
    Host.Outcome State Fault Refusal :=
  pureOp s gen.length payload.length noWork <|
    (bldData gen payload seq.toNat).map fun f r => { r with bytes := f }

/-- The meaning of `BLDACK` (R135): `bytes` is the frame. -/
def execBldack (seq : BitVec 32) (positive : Bool) (gen : Bits) (s : State) :
    Host.Outcome State Fault Refusal :=
  pureOp s gen.length 0 noWork <| (bldAck gen seq.toNat positive).map fun f r => { r with bytes := f }

/-- The meaning of `PARSE` (R136): `fields` is the record, `flag` is `match`. -/
def execParse (frame : Bytes) (gen : Bits) (s : State) : Host.Outcome State Fault Refusal :=
  pureOp s gen.length frame.length noWork <|
    (parseFrame gen frame).map fun f r => { r with fields := f.fields, flag := f.matchFlag }

end Sys2Proof.Machine
end

