-- ==== Sys2Proof/Machine/Arq.lean ====
section
/-! DEFINITION. The sending side of the session controller `ARQ` (42_arq_session.md R150 to R165): the meaning
of `SEND`, which is the atomic step `S.START`, the later steps of `SENDER`, and the timer. Each step rule is
one function that gives its whole effect; its guard stands in `senderStep` or beside it. -/

namespace Sys2Proof.Machine

open Sys2Proof

/-! ### `SEND`: the step `S.START` -/

/-- Sub-step `S.ALLOC` (R153). -/
def sAlloc (s : State) : State :=
  { s with pr := { s.pr with seq := s.seqCtr }, seqCtr := s.seqCtr + 1 }

/-- Sub-step `S.BUILD`, its effect when the payload fits (R154). -/
def sBuild (payload : Bytes) (s : State) : State :=
  { s with pr := { s.pr with frame := dataFrame s.cfgGen.bits payload s.pr.seq.toNat } }

/-- Sub-step `S.REGISTER` (R155). -/
def sRegister (s : State) : State :=
  { s with
    ws := { valid := true, seq := s.pr.seq, result := .pending, signal := false }
    pr := { s.pr with retriesUsed := 0, txPending := false, outcome := .none }
    phase := .sending }

/-- The payload of a `SEND` (R154): a text goes through `TXT2PAY`. -/
def sendPayload (bytes : Bytes) (isText : Bool) : Bytes := if isText then textToPayload bytes else bytes

/-- The step `S.START` (R152): `S.ACCEPT`, `S.ALLOC`, `S.BUILD`, `S.REGISTER`, as one atomic step. `Busy` and
`ConfigError(1)` change no register; `LengthError` comes after `S.ALLOC`. -/
def sStart (bytes : Bytes) (isText : Bool) (s : State) : State :=
  if s.phase ≠ .idle then s.raise errBusy
  else if s.cfgFault then s.raise errFrameGen
  else if Config.maxPayload < (sendPayload bytes isText).length then (sAlloc s).raise errLength
  else sRegister (sBuild (sendPayload bytes isText) (sAlloc s))

/-- The meaning of `SEND` (R152): `S.START`. The rest of the operation is the steps of `SENDER` below, and its
`RSP` comes at `S.FINISH` (R85, R240). An operand beyond a finite `BYTES_MAX` is refused, as U17 says. -/
def execSend (bytes : Bytes) (isText : Bool) (s : State) : Host.Outcome State Fault Refusal :=
  if buffersFit s.params 0 bytes.length then .next (sStart bytes isText s) else .refused .overCapacity

/-! ### The later steps of `SENDER` -/

/-- The effect of `S.TX` (R156); guard `PHASE = Sending` and `PR.txPending = 0`. -/
def sTx (s : State) : State :=
  { s.emit (.tx s.params.peerAddr s.pr.frame) with
    pr := { s.pr with retriesUsed := s.pr.retriesUsed + 1, txPending := true } }

/-- The effect of `S.TXS` (R157); guard `PHASE = Sending`, `PR.txPending = 1`, and the answer `ok` arrives. -/
def sTxs (ok : Bool) (s : State) : State :=
  if ok then
    { s with
      pr := { s.pr with txPending := false }
      timer := ackTimeoutTicks s.params
      phase := .awaitingAck }
  else
    { s with
      pr := { s.pr with txPending := false, outcome := .sendError }
      ws := { s.ws with result := .failed }
      phase := .failed }

/-- The effect of `S.WAKE` (R158); guard `PHASE = AwaitingAck` and `WS.signal = 1`. -/
def sWake (s : State) : State :=
  if s.ws.result = .acked then
    { s with pr := { s.pr with outcome := .success }, phase := .acked }
  else
    { s with pauseKind := true, timer := retryPauseTicks s.params, phase := .pausing }

/-- The effect of `S.TIMEOUT` (R159); guard `PHASE = AwaitingAck`, `WS.signal = 0` and `TIMER = 0`. -/
def sTimeout (s : State) : State :=
  { s with
    ws := { s.ws with result := .timedOut }
    pauseKind := false
    timer := retryPauseTicks s.params
    phase := .pausing }

/-- The effect of `S.PAUSE_END` (R160); guard `PHASE = Pausing` and `TIMER = 0`. The signal is cleared only
after a NACK. -/
def sPauseEnd (s : State) : State :=
  let ws := if s.pauseKind then { s.ws with signal := false } else s.ws
  if s.pr.retriesUsed.toNat < Config.maxRetries then { s with ws := ws, phase := .sending }
  else
    { s with
      ws := { ws with result := .failed }
      pr := { s.pr with outcome := .exhausted }
      phase := .failed }

/-- The `RSP` of a finished `SEND` (R161, R35): the status of `PR.outcome`, and nothing else of the registers. -/
def sReport (s : State) : State :=
  match s.pr.outcome with
  | .success => s.answer id
  | .exhausted => s.raise errExhausted
  | .sendError => s.raise errSend
  | .none => s

/-- The effect of `S.FINISH` (R161); guard `PHASE = Acked` or `PHASE = Failed`. -/
def sFinish (s : State) : State :=
  { sReport s with ws := { s.ws with valid := false }, phase := .idle }

/-- The next step of `SENDER` that waits for no transaction, if its guard holds (R151): `S.TX`, `S.WAKE`,
`S.TIMEOUT`, `S.PAUSE_END` or `S.FINISH`. The signal wins over the timeout (R211). -/
def senderStep (s : State) : State :=
  match s.phase with
  | .idle => s
  | .sending => if s.pr.txPending then s else sTx s
  | .awaitingAck => if s.ws.signal then sWake s else if s.timer = 0 then sTimeout s else s
  | .pausing => if s.timer = 0 then sPauseEnd s else s
  | .acked => sFinish s
  | .failed => sFinish s

/-- A `TXS` answer for `SENDER` (R157, U20): without a request it awaits, the answer is discarded. -/
def senderTxs (ok : Bool) (s : State) : State :=
  if s.phase = .sending ∧ s.pr.txPending then sTxs ok s else s

/-- The step `T.TICK` (R165). -/
def tTick (s : State) : State :=
  if (s.phase = .awaitingAck ∨ s.phase = .pausing) ∧ 0 < s.timer then { s with timer := s.timer - 1 } else s

end Sys2Proof.Machine
end

