-- ==== Sys2Proof/Machine/Receive.lean ====
section
/-! DEFINITION. The receive path of `ARQ` (42_arq_session.md R170 to R178): the steps of a receive context, and
the meanings of `RX.DATA`, `RX.ACK` and `RX.NACK`. A wire operation is the sequence of steps of the context
that holds its frame; its meaning is that context's next step, `X.PARSE` with the frame decoded, or the step
its step register names. -/

namespace Sys2Proof.Machine

open Sys2Proof

/-- The step `X.ACCEPT` (R170): if fewer than `RX_CONTEXTS` contexts exist, the message gets one; else it stays
with the transport (R208(a)). -/
def xAccept (m : Bytes) (peer : Addr) (s : State) : State :=
  if within s.params.rxContexts (s.rxc.length + 1) then s.createContext m peer else s

/-! ### `X.PARSE` -/

/-- `X.PARSE` on a frame that selects a wire operation (R171, R172): `EV_CONFIG` while `CFG_FAULT = 1`, else the
frame is stored and the step dispatched. -/
def xParse (k : Nat) (c : Context) (f : Fields) (next : Frame → CtxStep) (s : State) : State :=
  if s.cfgFault then (s.emit (.evt evConfig)).endContext k
  else
    let frame := checkFrame s.cfgGen.bits f
    s.putContext k { c with frame := frame, step := next frame }

/-- The event of a message that selects no wire operation (R171, R172, R222). -/
def rejectEvent : WireReject → Evt
  | .format r => evFormat (formatErr r).info
  | .reservedType t => evReservedType t

/-- `X.PARSE` on a message that selects no wire operation (R171, R172, R210): the first event that applies, no
protocol action, and the context ends. -/
def xReject (k : Nat) (r : WireReject) (s : State) : State :=
  (s.emit (.evt (if s.cfgFault then evConfig else rejectEvent r))).endContext k

/-! ### The steps after `X.PARSE` -/

/-- `X.NACK` (R173). -/
def xNack (k : Nat) (c : Context) (s : State) : State :=
  (s.emit (.tx s.params.peerAddr (ackFrame s.cfgGen.bits c.frame.fields.seq.toNat false))).putContext k
    { c with step := .nackWait }

/-- `X.NACK_TXS` (R173). -/
def xNackTxs (k : Nat) (c : Context) (ok : Bool) (s : State) : State :=
  let s' := if ok then s else s.emit (.evt (evReplyTxFail c.frame.fields.seq))
  (s'.emit (.evt (evChecksumFail c.frame.fields.seq))).endContext k

/-- `X.DATA_OK` (R174): the atomic test-and-insert. -/
def xDataOk (k : Nat) (c : Context) (s : State) : State :=
  let isNew := !s.isDelivered c.frame.fields.seq
  (s.markDelivered c.frame.fields.seq).putContext k
    { c with isNew := isNew, step := if isNew then .deliver else .ack }

/-- `X.DELIVER` (R175). -/
def xDeliver (k : Nat) (c : Context) (s : State) : State :=
  (s.emit (.up c.frame.fields.payload)).putContext k { c with step := .ack }

/-- `X.ACK` (R176). -/
def xAck (k : Nat) (c : Context) (s : State) : State :=
  (s.emit (.tx s.params.peerAddr (ackFrame s.cfgGen.bits c.frame.fields.seq.toNat true))).putContext k
    { c with step := .ackWait }

/-- `X.ACK_TXS` (R176). -/
def xAckTxs (k : Nat) (c : Context) (ok : Bool) (s : State) : State :=
  (if ok then s else s.emit (.evt (evReplyTxFail c.frame.fields.seq))).endContext k

/-- `X.ACKNACK` (R177): neither the match flag nor the payload is consulted (D19). -/
def xAckNack (k : Nat) (c : Context) (s : State) : State :=
  (s.storeReply c.frame.fields.seq
    (if c.frame.fields.type = Config.typeAck then .acked else .nacked)).endContext k

/-- The next step of context `k` after `X.PARSE` that waits for no transaction, by its step register (R37). In
`NackWait` and `AckWait` the context awaits a `TXS`; no step is enabled. -/
def xStep (k : Nat) (c : Context) (s : State) : State :=
  match c.step with
  | .parse => s
  | .nack => xNack k c s
  | .nackWait => s
  | .testInsert => xDataOk k c s
  | .deliver => xDeliver k c s
  | .ack => xAck k c s
  | .ackWait => s
  | .ackNack => xAckNack k c s
  | .done => s

/-- A `TXS` answer for context `k` (R173, R176, U20): without a request it awaits, the answer is discarded. -/
def contextTxs (k : Nat) (ok : Bool) (s : State) : State :=
  match s.context k with
  | none => s
  | some c =>
    match c.step with
    | .nackWait => xNackTxs k c ok s
    | .ackWait => xAckTxs k c ok s
    | .parse | .nack | .testInsert | .deliver | .ack | .ackNack | .done => s

/-! ### The meanings of the wire operations -/

/-- A step of the wire operation with the fields `f`, taken by the context `cur`: in `Parse`, `X.PARSE` with
the dispatch `next`; later, the step that the step register names. -/
def wireOp (f : Fields) (next : Frame → CtxStep) (s : State) : Host.Outcome State Fault Refusal :=
  match s.context s.cur with
  | none => .fault .noContext
  | some c => .next (if c.step = .parse then xParse s.cur c f next s else xStep s.cur c s)

/-- The meaning of `RX.DATA` (R172 to R176): on a match the context goes on to `X.DATA_OK`, else to `X.NACK`. -/
def execRxData (version seq : Byte) (length : BitVec 16) (payload : Bytes) (checksum : Byte) (s : State) :
    Host.Outcome State Fault Refusal :=
  wireOp { version, type := Config.typeData, seq, length, payload, checksum }
    (fun fr => if fr.matchFlag then .testInsert else .nack) s

/-- The meaning of `RX.ACK` (R172, R177). -/
def execRxAck (version seq : Byte) (length : BitVec 16) (payload : Bytes) (checksum : Byte) (s : State) :
    Host.Outcome State Fault Refusal :=
  wireOp { version, type := Config.typeAck, seq, length, payload, checksum } (fun _ => .ackNack) s

/-- The meaning of `RX.NACK` (R172, R177). -/
def execRxNack (version seq : Byte) (length : BitVec 16) (payload : Bytes) (checksum : Byte) (s : State) :
    Host.Outcome State Fault Refusal :=
  wireOp { version, type := Config.typeNack, seq, length, payload, checksum } (fun _ => .ackNack) s

end Sys2Proof.Machine
end

