-- ==== Sys2Proof/Machine/Dispatch.lean ====
section
/-! DEFINITION. The meaning of every operation of spec/opcode_table.json, one arm each. -/

namespace Sys2Proof.Machine

open Sys2Proof

def exec (i : Instr) (s : State) : Host.Outcome State Fault Refusal :=
  match i with
  -- 40_crc_engine.md
  | .crcreg gen data => Sys2Proof.Machine.execCrcreg gen data s
  | .crcdiv gen msg => Sys2Proof.Machine.execCrcdiv gen msg s
  | .crcenc gen msg => Sys2Proof.Machine.execCrcenc gen msg s
  | .crcvfy gen cw => Sys2Proof.Machine.execCrcvfy gen cw s
  | .divtrc gen msg => Sys2Proof.Machine.execDivtrc gen msg s
  | .bytes2b bytes => Sys2Proof.Machine.execBytes2b bytes s
  | .b2bytes bits => Sys2Proof.Machine.execB2bytes bits s
  | .classify text => Sys2Proof.Machine.execClassify text s
  -- 41_frame_codec.md
  | .txt2pay text => Sys2Proof.Machine.execTxt2pay text s
  | .blddata payload gen seq => Sys2Proof.Machine.execBlddata payload gen seq s
  | .bldack seq positive gen => Sys2Proof.Machine.execBldack seq positive gen s
  | .parse frame gen => Sys2Proof.Machine.execParse frame gen s
  -- 42_arq_session.md
  | .send bytes isText => Sys2Proof.Machine.execSend bytes isText s
  | .rxData version seq length payload checksum => Sys2Proof.Machine.execRxData version seq length payload checksum s
  | .rxAck version seq length payload checksum => Sys2Proof.Machine.execRxAck version seq length payload checksum s
  | .rxNack version seq length payload checksum => Sys2Proof.Machine.execRxNack version seq length payload checksum s

end Sys2Proof.Machine
end

