-- ==== Sys2Proof/Machine/Run.lean ====
section
/-! DEFINITION. One atomic step of the block under one stimulus (00_scope.md R13): fetching and running a
command, an inbound message, an answer of the transport, a tick, a reset, or a step of an agent inside. -/

namespace Sys2Proof.Machine

open Sys2Proof

/-- A `CMD` transaction (R83, R87, R207): the operation its selector names, else `BadOp`. -/
def takeCommand (c : Cmd) (s : State) : Host.Outcome State Fault Refusal :=
  match decodeCmd c with
  | .ok i => exec i s
  | .error _ => .next (s.raise errBadOp)

/-- An `RX` transaction (R170). A message has at most `BYTES_MAX` bytes (R141(d)): one beyond it is
refused, as U17 says. -/
def takeMessage (m : Bytes) (peer : Addr) (s : State) : Host.Outcome State Fault Refusal :=
  if within s.params.bytesMax m.length then .next (xAccept m peer s) else .refused .overCapacity

/-- The next step of receive context `k`. In `Parse` its message is decoded and the wire operation it selects
runs; a message that selects none is dropped (R171, R172). -/
def contextStep (k : Nat) (s : State) : Host.Outcome State Fault Refusal :=
  match s.context k with
  | none => .next s
  | some c =>
    let s' := { s with cur := k }
    if c.step = .parse then
      match decodeMessage c.bytes with
      | .ok i => exec i s'
      | .error r => .next (xReject k r s')
    else .next (xStep k c s')

/-- One stimulus. A stimulus whose step's guard is false changes nothing (log entry 1). -/
def takeStimulus (x : Config.Stimulus) (s : State) : Host.Outcome State Fault Refusal :=
  match x with
  | .cmd c => takeCommand c s
  | .rx m peer => takeMessage m peer s
  | .txs none _ => .next s
  | .txs (some .sender) ok => .next (senderTxs ok s)
  | .txs (some (.context k)) ok => .next (contextTxs k ok s)
  | .tick => .next (tTick s)
  | .rst p => .next (s.zReset p)
  | .run .sender => .next (senderStep s)
  | .run (.context k) => contextStep k s

/-- The stimulus of the next step: the one placed first, else the environment's next draw (log entry 1). -/
def State.nextStimulus (s : State) : Config.Stimulus := s.sched.headD (Config.draw s.free)

/-- The state with the next stimulus taken off: off the placed ones, else off the draws. -/
def State.popStimulus (s : State) : State :=
  match s.sched with
  | _ :: rest => { s with sched := rest }
  | [] => { s with free := s.free + 1 }

end Sys2Proof.Machine
end

