-- ==== Sys2Proof/Machine/Step.lean ====
section
/-! DEFINITION. One step of the machine, and where an instruction is placed so that the next step runs it. -/

namespace Sys2Proof.Machine

open Sys2Proof

/-- One step: one atomic step of one agent, the next stimulus deciding which (R13, log entry 1). -/
def step (s : State) : Host.Outcome State Fault Refusal := takeStimulus s.nextStimulus s.popStimulus

/-- The state in which the very next step runs the instruction of a word of spec/opcode_table.json. A command is
placed as the next `CMD` transaction. A message is held by a new receive context, where `X.ACCEPT` would put it,
and that context's step comes next (log entry 5). -/
def State.withFetchWord (s : State) (nbits w : Nat) : State :=
  match tableTransaction nbits w with
  | .cmd c => { s with sched := .cmd c :: s.sched }
  | .message m =>
    { s.createContext m s.params.peerAddr with
      sched := .run (.context (freshContext 0 s.rxc)) :: s.sched }

end Sys2Proof.Machine
end

