-- ==== Sys2Proof/Safety.lean ====
section
/-! DEFINITION. The terms the statements are written in: the invariant of the block (10_state.md R42), the
state after an answer, and counts of deliveries. -/

namespace Sys2Proof

/-- The answer `OK` (R85, R86): `info` is 0 when unused. -/
def Rsp.IsOK (r : Rsp) : Prop := r.status = 0x00 ∧ r.info = 0

/-- The answer `ConfigError(info)` (R86, R201). -/
def Rsp.IsConfigError (r : Rsp) (info : Byte) : Prop := r.status = 0x01 ∧ r.info = info

end Sys2Proof

namespace Sys2Proof.Machine

open Sys2Proof

/-- The state after one `RSP` transaction `r`, every register and the rest unchanged. -/
def State.afterRsp (s : State) (r : Rsp) : State := { s with out := s.out ++ [.rsp r], free := s.free + 1 }

/-- The indexes of the receive contexts rise strictly. -/
def State.ContextsRising (s : State) : Prop := (s.rxc.map Prod.fst).Pairwise (· < ·)

/-- What holds of a receive context in processing (R37, R171 to R176): it is not `Done`; after `X.PARSE` its
`frame` is what `PARSE` makes of its `bytes`; and each step register value is reached on the frames the
dispatch of R172 sends there. -/
structure ContextOK (s : State) (c : Context) : Prop where
  live : c.step ≠ .done
  parsed : c.step ≠ .parse →
    parseFields c.bytes = .ok c.frame.fields ∧ c.frame = checkFrame s.cfgGen.bits c.frame.fields
  nacking : c.step = .nack ∨ c.step = .nackWait → c.frame.fields.type = 0 ∧ c.frame.matchFlag = false
  dataMatched : c.step = .testInsert ∨ c.step = .deliver ∨ c.step = .ack ∨ c.step = .ackWait →
    c.frame.fields.type = 0 ∧ c.frame.matchFlag = true
  replying : c.step = .ackNack → c.frame.fields.type = 1 ∨ c.frame.fields.type = 2
  inserted : c.step = .deliver ∨ c.step = .ack ∨ c.step = .ackWait →
    s.isDelivered c.frame.fields.seq = true
  fresh : c.step = .deliver → c.isNew = true

/-- The invariant of the block: the clauses of R42 that speak of one state, R26 and R27, the form of the
receive contexts (R37), and what the send procedure keeps between its steps (R151, R154, R157, R163(a)). -/
structure BlockInv (s : State) : Prop where
  /-- R26: `CFG_GEN` holds the parameter `GEN`. -/
  genLoaded : s.cfgGen = { len := s.params.gen.length, bits := s.params.gen }
  /-- R27. -/
  faultComputed : s.cfgFault = true ↔ s.params.gen.length < 1 ∨ 8 < s.params.gen.length
  /-- R42(b). -/
  slotIffBusy : s.ws.valid = true ↔ s.phase ≠ .idle
  /-- R42(c). -/
  slotSeq : s.ws.valid = true → s.ws.seq = s.pr.seq
  /-- R42(d). -/
  retriesLeft : s.phase = .sending → s.pr.txPending = false → s.pr.retriesUsed.toNat < 3
  /-- R30: a `TX` request of `SENDER` awaits its answer only in `Sending`. -/
  awaitsInSending : s.phase ≠ .idle → s.phase ≠ .sending → s.pr.txPending = false
  /-- R163(a), while the reply can still be read. -/
  replyStored : s.phase = .sending ∨ s.phase = .awaitingAck ∨ s.phase = .pausing →
    s.ws.signal = true → s.ws.result = .acked ∨ s.ws.result = .nacked
  /-- R42(g). -/
  timerBound : s.timer ≤ ackTimeoutTicks s.params
  /-- R34, R154: while a `SEND` is in progress `PR.frame` is the DATA frame of its sequence number. -/
  frameBuilt : s.phase ≠ .idle →
    ∃ payload : Bytes, payload.length ≤ 65535 ∧ s.pr.frame = dataFrame s.cfgGen.bits payload s.pr.seq.toNat
  /-- R151: what `S.FINISH` will report. -/
  outcomeAcked : s.phase = .acked → s.pr.outcome = .success
  outcomeFailed : s.phase = .failed →
    s.pr.outcome = .sendError ∨ (s.pr.outcome = .exhausted ∧ s.pr.retriesUsed.toNat = 3)
  /-- R42(h). -/
  faulted : s.cfgFault = true → s.phase = .idle ∧ s.ws.valid = false ∧ s.delivered = 0 ∧ s.seqCtr = 0 ∧
    ∀ k c, s.context k = some c → c.step = .parse
  /-- R37: the contexts have distinct indexes. -/
  rising : s.ContextsRising
  /-- R37: at most `RX_CONTEXTS` contexts exist. -/
  bounded : ∀ n, s.params.rxContexts = some n → s.rxc.length ≤ n
  /-- R37: each context is in a legal form. -/
  contextsOK : ∀ k c, s.context k = some c → ContextOK s c

/-- How many payloads have been delivered upward. -/
def upCount (out : List PortOut) : Nat :=
  out.countP fun o => match o with | .up _ => true | _ => false

/-- How many receive contexts are about to deliver (R175). -/
def State.deliverCount (s : State) : Nat := s.rxc.countP fun e => e.2.step == .deliver

/-- How many sequence numbers the delivered-set holds (R36). -/
def State.deliveredCount (s : State) : Nat := (List.range 256).countP fun q => s.delivered.getLsbD q

/-- Whether a stimulus is a reset. -/
def isReset : Config.Stimulus → Bool
  | .rst _ => true
  | _ => false

/-- Whether a stimulus is a `SEND` that `S.ACCEPT` lets through in this state (R152). -/
def State.acceptsSend (s : State) : Config.Stimulus → Bool
  | .cmd c => c.op == 0x0C && decide (s.phase = .idle) && !s.cfgFault
  | _ => false

/-- The stimuli of one attempt of a `SEND` that gets no reply (R163(b)): `S.TX`, `S.TXS` with `ok = 1`, the
ticks of the wait, `S.TIMEOUT`, the ticks of the pause, `S.PAUSE_END`. -/
def lostAttempt (p : Config.Params) : List Config.Stimulus :=
  [.run .sender, .txs (some .sender) true] ++ List.replicate (ackTimeoutTicks p) .tick ++
  [.run .sender] ++ List.replicate (retryPauseTicks p) .tick ++ [.run .sender]

/-- The stimuli of a `SEND` none of whose transmissions gets a reply, down to `S.FINISH` (R163(b)). -/
def lostSend (p : Config.Params) (bytes : Bytes) (isText : Bool) : List Config.Stimulus :=
  [.cmd { blankCmd 0x0C with bytes := bytes, flag := isText }] ++
  lostAttempt p ++ lostAttempt p ++ lostAttempt p ++ [.run .sender]

end Sys2Proof.Machine
end

