-- ==== Sys2Proof/Certificates/Slice0/Obligations.lean ====
section
/-! DEFINITION. The statements for the provers. -/

open Sys2Proof Sys2Proof.Machine

/-! ### Decoding and encoding -/

/-- Every well-formed operation of the table decodes from its encoding (R73, R80, R84). -/
def Obligations.DecodeOfEncodeIsIdentity : Prop :=
  ∀ i : Instr, i.wellFormed = true → decode (encode i) = .ok i

/-- A message decodes to at most one operation, which is well formed and whose encoding is that message byte
for byte, the version byte and the checksum byte included (R56, R73). -/
def Obligations.DecodedMessageReencodes : Prop :=
  ∀ (m : Bytes) (i : Instr), decode (.message m) = .ok i → i.wellFormed = true ∧ encode i = .message m

/-- R80, R82(c): after the format checks the wire operation is selected by `H` under the mask `0x00FF000000`
alone; a reserved type selects none. -/
def Obligations.WireOperationSelectedByType : Prop :=
  ∀ (m : Bytes) (f : Fields), parseFields m = .ok f →
    decode (.message m) =
      if memRead m 0 5 &&& 0x00FF000000 = 0x0000000000 then
        .ok (.rxData f.version f.seq f.length f.payload f.checksum)
      else if memRead m 0 5 &&& 0x00FF000000 = 0x0001000000 then
        .ok (.rxAck f.version f.seq f.length f.payload f.checksum)
      else if memRead m 0 5 &&& 0x00FF000000 = 0x0002000000 then
        .ok (.rxNack f.version f.seq f.length f.payload f.checksum)
      else .error (.wire (.reservedType f.type))

/-- The format checks (R136, R137, R141): which messages are frames, and where their fields lie (R56). -/
def Obligations.FormatChecksAndFrameMap : Prop :=
  ∀ m : Bytes,
    (m.length < 6 → parseFields m = .error .tooShort) ∧
    (6 ≤ m.length → 256 * (m.getD 3 0).toNat + (m.getD 4 0).toNat ≠ m.length - 6 →
      parseFields m = .error .lengthMismatch) ∧
    (6 ≤ m.length → 256 * (m.getD 3 0).toNat + (m.getD 4 0).toNat = m.length - 6 →
      ∃ f : Fields, parseFields m = .ok f ∧ f.version = m.getD 0 0 ∧ f.type = m.getD 1 0 ∧
        f.seq = m.getD 2 0 ∧ f.length.toNat = m.length - 6 ∧ f.payload.length = m.length - 6 ∧
        m = m.take 5 ++ f.payload ++ [f.checksum])

/-- A command or message that decodes is run: the step is the meaning of the decoded operation, in the state
with that stimulus taken off and, for a message, its context selected; the later steps of a context are those
of its operation. -/
def Obligations.StepRunsDecodedOperation : Prop :=
  (∀ (s : State) (c : Cmd) (i : Instr), s.nextStimulus = .cmd c → decode (.cmd c) = .ok i →
    step s = exec i s.popStimulus) ∧
  (∀ (s : State) (k : Nat) (c : Context) (i : Instr), s.nextStimulus = .run (.context k) →
    s.context k = some c → c.step = .parse → decode (.message c.bytes) = .ok i →
    step s = exec i { s.popStimulus with cur := k }) ∧
  (∀ (s : State) (k : Nat) (c : Context) (i : Instr), s.nextStimulus = .run (.context k) →
    s.context k = some c → c.step ≠ .parse → i.isWire = true →
    step s = exec i { s.popStimulus with cur := k })

/-- R84, R80: words written out from the tables decode to the rows they stand for. -/
def Obligations.TableWordsDecode : Prop :=
  decodeTableWord 8 0x00 = some (.crcreg [] []) ∧ decodeTableWord 8 0x04 = some (.divtrc [] []) ∧
  decodeTableWord 8 0x0B = some (.parse [] []) ∧ decodeTableWord 8 0x0C = some (.send [] false) ∧
  decodeTableWord 8 0x0D = none ∧
  decodeTableWord 40 0x0100070001 = some (.rxData 1 7 1 [0] 0) ∧
  decodeTableWord 40 0x0101070000 = some (.rxAck 1 7 0 [] 0) ∧
  decodeTableWord 40 0x0102FF0000 = some (.rxNack 1 0xFF 0 [] 0) ∧
  decodeTableWord 40 0x0103000000 = none

/-- R207: a reserved selector, and `DIVTRC` when `HAS_TRACE` is false, are answered `BadOp`, whatever the operands
hold; no register changes and nothing else is issued. -/
def Obligations.ReservedSelectorAnswersBadOp : Prop :=
  ∀ (s : State) (c : Cmd), s.nextStimulus = .cmd c →
    0x0D ≤ c.op.toNat ∨ (c.op = 0x04 ∧ s.params.hasTrace = false) →
    ∃ r : Rsp, step s = .next (s.popStimulus.afterRsp r) ∧ r.status = 0x07 ∧ r.info = 0

/-- An operation reads only the operands R84 lists for it: two commands with the same selector that agree on
the listed operands decode alike (R83, R87). -/
def Obligations.UnlistedOperandsIgnored : Prop :=
  ∀ c d : Cmd, c.op = d.op →
    (c.op.toNat ∈ [0x00, 0x01, 0x02, 0x03, 0x04, 0x09, 0x0A, 0x0B] → c.gen = d.gen) →
    (c.op.toNat ∈ [0x01, 0x02, 0x03, 0x04, 0x06] → c.bits = d.bits) →
    (c.op.toNat ∈ [0x00, 0x05, 0x07, 0x08, 0x09, 0x0B, 0x0C] → c.bytes = d.bytes) →
    (c.op.toNat ∈ [0x09, 0x0A] → c.seq = d.seq) →
    (c.op.toNat ∈ [0x0A, 0x0C] → c.flag = d.flag) →
    decode (.cmd c) = decode (.cmd d)

/-! ### The CRC engine -/

/-- `poly(b)`: the sum over `i < L` of `b[i] * x^(L-1-i)` over GF(2) (R15). -/
noncomputable def Sys2Proof.poly (b : Bits) : Polynomial (ZMod 2) :=
  ∑ i ∈ Finset.range b.length, if b.getD i false then Polynomial.X ^ (b.length - 1 - i) else 0

/-- R102: `RegStep` doubles the register, takes the bit in at bit 0, drops the captured top bit, and XORs the
generator iff that bit was 1; the result is again an n-bit number. -/
def Obligations.RegStepShiftsAndReduces : Prop :=
  ∀ (n gv r : Nat) (b : Bool), 1 ≤ n → gv < 2 ^ n → r < 2 ^ n →
    (r < 2 ^ (n - 1) → regStep n gv r b = 2 * r + b.toNat) ∧
    (2 ^ (n - 1) ≤ r → regStep n gv r b = (2 * r + b.toNat - 2 ^ n) ^^^ gv) ∧
    regStep n gv r b < 2 ^ n

/-- `CRCREG` answers the register-mode remainder, or `ConfigError(1)` for a generator of 0 or more than 8
bits; no register changes (R101, R103, R40). -/
def Obligations.RegisterModeAnswers : Prop :=
  ∀ (gen : Bits) (data : Bytes) (s : State), buffersFit s.params gen.length data.length = true →
    (1 ≤ gen.length → gen.length ≤ 8 → ∃ r : Rsp, exec (.crcreg gen data) s = .next (s.afterRsp r) ∧
      r.IsOK ∧ r.value.toNat = regRem gen (bytesToBits data)) ∧
    (gen.length < 1 ∨ 8 < gen.length → ∃ r : Rsp,
      exec (.crcreg gen data) s = .next (s.afterRsp r) ∧ r.IsConfigError 1)

/-- The register holds the n coefficients of `poly(m) mod (x^n + poly(gen))`: the spec's own inference R104, from
R15, R102 and R103. -/
def Obligations.RegisterModeIsPolynomialRemainder : Prop :=
  ∀ gen m : Bits, 1 ≤ gen.length →
    regRem gen m < 2 ^ gen.length ∧
    poly (bitsN gen.length (regRem gen m)) =
      poly m %ₘ (Polynomial.X ^ gen.length + poly gen)

/-- The corner cases of register mode: the spec's own inferences R105(a) to (e), from R102 and R103. -/
def Obligations.RegisterModeCornerCases : Prop :=
  (∀ gen : Bits, regRem gen [] = 0) ∧
  (∀ m : Bits, regRem [true] m = (m.foldl (· ^^ ·) false).toNat) ∧
  (∀ m : Bits, regRem [false] m = (m.getLastD false).toNat) ∧
  (∀ (n : Nat) (m : Bits), 1 ≤ n → regRem (zeros n) m = val (m.drop (m.length - n))) ∧
  (∀ gen m : Bits, m.length ≤ gen.length → regRem gen m = val m) ∧
  (∀ (gen : Bits) (k : Nat) (d : Bytes),
    regRem gen (bytesToBits (List.replicate k 0 ++ d)) = regRem gen (bytesToBits d))

/-- `CRCDIV`, `CRCENC` and `CRCVFY` answer the remainder, the codeword, and the verdict with the remainder;
or `ConfigError(2)` for a generator that is empty, begins with 0 or is longer than `DIV_GEN_MAX`, whether or not the
working buffer would fit: the check comes before it exists. No register changes (R101, R107, R110, R111, R40). -/
def Obligations.ExactDivisionAnswers : Prop :=
  ∀ (gen msg : Bits) (s : State), buffersFit s.params (max gen.length msg.length) 0 = true →
    (gen.getD 0 false = true ∧ (∀ m, s.params.divGenMax = some m → gen.length ≤ m) →
      buffersFit s.params (msg.length + (gen.length - 1)) 0 = true →
      (∃ r : Rsp, exec (.crcdiv gen msg) s = .next (s.afterRsp r) ∧ r.IsOK ∧
        r.bits = exactRem gen msg ∧ r.bits.length = gen.length - 1) ∧
      (∃ r : Rsp, exec (.crcenc gen msg) s = .next (s.afterRsp r) ∧ r.IsOK ∧
        r.bits = msg ++ exactRem gen msg ∧ r.bits.length = msg.length + (gen.length - 1)) ∧
      (∃ r : Rsp, exec (.crcvfy gen msg) s = .next (s.afterRsp r) ∧ r.IsOK ∧
        r.bits = exactRem gen msg ∧ (r.flag = true ↔ r.bits = zeros (gen.length - 1)))) ∧
    (gen.getD 0 false = false ∨ (∃ m, s.params.divGenMax = some m ∧ m < gen.length) →
      (∃ r : Rsp, exec (.crcdiv gen msg) s = .next (s.afterRsp r) ∧ r.IsConfigError 2) ∧
      (∃ r : Rsp, exec (.crcenc gen msg) s = .next (s.afterRsp r) ∧ r.IsConfigError 2) ∧
      (∃ r : Rsp, exec (.crcvfy gen msg) s = .next (s.afterRsp r) ∧ r.IsConfigError 2))

/-- `LongDiv` (R106) keeps the length of the buffer and leaves its first `L` bits zero: the inference at the end of
R106. -/
def Obligations.LongDivisionClearsQuotientBits : Prop :=
  ∀ gen w : Bits, gen.getD 0 false = true → gen.length - 1 ≤ w.length →
    (longDiv gen w).length = w.length ∧
    (longDiv gen w).take (w.length - (gen.length - 1)) = zeros (w.length - (gen.length - 1))

/-- The remainder is the `n - 1` coefficients of `poly(msg) * x^(n-1) mod poly(gen)`: the spec's own inference R109,
from R15, R106 and R107. -/
def Obligations.ExactDivisionIsPolynomialRemainder : Prop :=
  ∀ gen msg : Bits, gen.getD 0 false = true →
    (exactRem gen msg).length = gen.length - 1 ∧
    poly (exactRem gen msg) = (poly msg * Polynomial.X ^ (gen.length - 1)) %ₘ poly gen

/-- The round-trip law of exact-division mode, R112: the source states the law, and the spec infers it from R109 to
R111. -/
def Obligations.CodewordsVerify : Prop :=
  ∀ (p : Config.Params) (gen msg cw : Bits), crcEnc p gen msg = .ok cw →
    crcVfy p gen cw = .ok (true, zeros (gen.length - 1))

/-- With a generator of length at least 2 whose last bit is 1, flipping any single bit of a valid codeword is
detected: the spec's own inference in R113, from R109 to R111. -/
def Obligations.SingleBitErrorsDetected : Prop :=
  ∀ (p : Config.Params) (gen msg cw : Bits) (i : Nat), crcEnc p gen msg = .ok cw →
    2 ≤ gen.length → gen.getLastD false = true → i < cw.length →
    ∃ rem : Bits, crcVfy p gen (cw.set i (!cw.getD i false)) = .ok (false, rem) ∧
      rem ≠ zeros (gen.length - 1)

/-- `DIVTRC` answers `CRCDIV`'s remainder and one record per XOR performed: a position has a record iff its working
bit is 1 when it is visited, positions rise, and a record holds the window before and after the XOR with the generator
(R115, R116). An unacceptable generator is answered `ConfigError(2)` before the working buffer exists. `w i` is the
working buffer when position `i` is visited. -/
def Obligations.TraceNarratesTheDivision : Prop :=
  ∀ (gen msg : Bits) (s : State), buffersFit s.params (max gen.length msg.length) 0 = true →
    s.params.hasTrace = true →
    (divGenOK s.params gen = true → buffersFit s.params (msg.length + (gen.length - 1)) 0 = true →
      ∃ (r : Rsp) (w : Nat → Bits), exec (.divtrc gen msg) s = .next (s.afterRsp r) ∧ r.IsOK ∧
        r.bits = exactRem gen msg ∧ w 0 = msg ++ zeros (gen.length - 1) ∧ (∀ i, w (i + 1) = divStep gen (w i) i) ∧
        (r.trace.map TraceRecord.position).Pairwise (· < ·) ∧
        (∀ i, (∃ e ∈ r.trace, e.position = i) ↔ i < msg.length ∧ (w i).getD i false = true) ∧
        ∀ e ∈ r.trace, e.segment = ((w e.position).drop e.position).take gen.length ∧ e.generator = gen ∧
          e.segment.length = gen.length ∧ e.segment.getD 0 false = true ∧ e.result.getD 0 false = false ∧
          e.result = List.zipWith (· ^^ ·) e.segment gen) ∧
    (divGenOK s.params gen = false →
      ∃ r : Rsp, exec (.divtrc gen msg) s = .next (s.afterRsp r) ∧ r.IsConfigError 2)

/-- `BYTES2B` answers the bits of the bytes, bit `8*i + j` being bit `7 - j` of byte `i` (R117). -/
def Obligations.UnpackingAnswers : Prop :=
  ∀ (bs : Bytes) (s : State), buffersFit s.params (8 * bs.length) bs.length = true →
    ∃ r : Rsp, exec (.bytes2b bs) s = .next (s.afterRsp r) ∧ r.IsOK ∧ r.bits.length = 8 * bs.length ∧
      ∀ i j, i < bs.length → j < 8 → r.bits.getD (8 * i + j) false = (bs.getD i 0).getLsbD (7 - j)

/-- `B2BYTES` answers `ceil(len/8)` bytes, bit `7 - j` of byte `i` being bit `8*i + j` of the sequence, or 0
past its end (R118, R52). -/
def Obligations.PackingAnswers : Prop :=
  ∀ (b : Bits) (s : State), buffersFit s.params b.length ((b.length + 7) / 8) = true →
    ∃ r : Rsp, exec (.b2bytes b) s = .next (s.afterRsp r) ∧ r.IsOK ∧
      r.bytes.length = (b.length + 7) / 8 ∧
      ∀ i j, i < r.bytes.length → j < 8 → (r.bytes.getD i 0).getLsbD (7 - j) = b.getD (8 * i + j) false

/-- The laws of packing, the spec's own inference R119 from R117 and R118: packing undoes unpacking; unpacking a packed sequence gives it back with its padding; so two
sequences may pack to the same byte. -/
def Obligations.PackingLaws : Prop :=
  (∀ bs : Bytes, bitsToBytes (bytesToBits bs) = bs) ∧
  (∀ b : Bits, bytesToBits (bitsToBytes b) = b ++ zeros ((8 - b.length % 8) % 8)) ∧
  bitsToBytes [true, true, false, true] = bitsToBytes [true, true, false, true, false, false, false, false]

/-- `CLASSIFY` answers 1 iff the text less its spaces is non-empty and holds only `0` and `1` (R120), so that a
text that holds any other byte, a tab among them, is not raw, and one of spaces only is not raw (R121). -/
def Obligations.ClassifyAnswers : Prop :=
  ∀ (t : Bytes) (s : State), buffersFit s.params 0 t.length = true →
    ∃ r : Rsp, exec (.classify t) s = .next (s.afterRsp r) ∧ r.IsOK ∧
      (r.flag = true ↔ (∃ b ∈ t, b ≠ 0x20) ∧ ∀ b ∈ t, b = 0x20 ∨ b = 0x30 ∨ b = 0x31)

/-! ### The frame codec -/

/-- `TXT2PAY` packs a raw text and passes every other text through unchanged (R133). -/
def Obligations.TextToPayloadAnswers : Prop :=
  ∀ (t : Bytes) (s : State), buffersFit s.params 0 t.length = true →
    ∃ r : Rsp, exec (.txt2pay t) s = .next (s.afterRsp r) ∧ r.IsOK ∧
      (((∃ b ∈ t, b ≠ 0x20) ∧ ∀ b ∈ t, b = 0x20 ∨ b = 0x30 ∨ b = 0x31) →
        r.bytes = bitsToBytes ((t.filter (· ≠ 0x20)).map (· == 0x31))) ∧
      ((∀ b ∈ t, b = 0x20) ∨ (∃ b ∈ t, b ≠ 0x20 ∧ b ≠ 0x30 ∧ b ≠ 0x31) → r.bytes = t)

/-- `BLDDATA` answers header, payload and checksum byte, `ConfigError(1)` first and then `LengthError` (R131,
R134, R76, R77). -/
def Obligations.BuildDataAnswers : Prop :=
  ∀ (payload : Bytes) (gen : Bits) (seq : BitVec 32) (s : State),
    buffersFit s.params gen.length payload.length = true →
    (gen.length < 1 ∨ 8 < gen.length →
      ∃ r : Rsp, exec (.blddata payload gen seq) s = .next (s.afterRsp r) ∧ r.IsConfigError 1) ∧
    (1 ≤ gen.length → gen.length ≤ 8 → 65535 < payload.length →
      ∃ r : Rsp, exec (.blddata payload gen seq) s = .next (s.afterRsp r) ∧ r.status = 0x03 ∧ r.info = 0) ∧
    (1 ≤ gen.length → gen.length ≤ 8 → payload.length ≤ 65535 →
      ∃ (r : Rsp) (hi lo : Byte), exec (.blddata payload gen seq) s = .next (s.afterRsp r) ∧ r.IsOK ∧
        256 * hi.toNat + lo.toNat = payload.length ∧
        r.bytes = [1, 0, seq.setWidth 8, hi, lo] ++ payload ++
          [checksum gen ([1, 0, seq.setWidth 8, hi, lo] ++ payload)])

/-- `BLDACK` answers the 6-byte ACK or NACK frame, or `ConfigError(1)` (R131, R135, R76). -/
def Obligations.BuildAckAnswers : Prop :=
  ∀ (seq : BitVec 32) (positive : Bool) (gen : Bits) (s : State),
    buffersFit s.params gen.length 0 = true →
    (gen.length < 1 ∨ 8 < gen.length →
      ∃ r : Rsp, exec (.bldack seq positive gen) s = .next (s.afterRsp r) ∧ r.IsConfigError 1) ∧
    (1 ≤ gen.length → gen.length ≤ 8 →
      ∃ r : Rsp, exec (.bldack seq positive gen) s = .next (s.afterRsp r) ∧ r.IsOK ∧
        r.bytes = [1, if positive then 1 else 2, seq.setWidth 8, 0, 0,
          checksum gen [1, if positive then 1 else 2, seq.setWidth 8, 0, 0]])

/-- `PARSE`: the generator is checked first, then the 6-byte minimum, then the length field, and only then the
checksum, compared with the whole received byte; a mismatch is no error (R136, R137). -/
def Obligations.ParseAnswers : Prop :=
  ∀ (f : Bytes) (gen : Bits) (s : State), buffersFit s.params gen.length f.length = true →
    (gen.length < 1 ∨ 8 < gen.length →
      ∃ r : Rsp, exec (.parse f gen) s = .next (s.afterRsp r) ∧ r.IsConfigError 1) ∧
    (1 ≤ gen.length → gen.length ≤ 8 →
      (f.length < 6 →
        ∃ r : Rsp, exec (.parse f gen) s = .next (s.afterRsp r) ∧ r.status = 0x02 ∧ r.info = 1) ∧
      (6 ≤ f.length → 256 * (f.getD 3 0).toNat + (f.getD 4 0).toNat ≠ f.length - 6 →
        ∃ r : Rsp, exec (.parse f gen) s = .next (s.afterRsp r) ∧ r.status = 0x02 ∧ r.info = 2) ∧
      (6 ≤ f.length → 256 * (f.getD 3 0).toNat + (f.getD 4 0).toNat = f.length - 6 →
        ∃ r : Rsp, exec (.parse f gen) s = .next (s.afterRsp r) ∧ r.IsOK ∧
          r.fields.version = f.getD 0 0 ∧ r.fields.type = f.getD 1 0 ∧ r.fields.seq = f.getD 2 0 ∧
          r.fields.length.toNat = f.length - 6 ∧ r.fields.payload = (f.drop 5).take (f.length - 6) ∧
          r.fields.checksum = f.getD (f.length - 1) 0 ∧
          r.flag = (checksum gen (f.take (f.length - 1)) == f.getD (f.length - 1) 0)))

/-- A built frame parses back with `match = 1` and every field recovered: R138, which the spec infers from R131 to
R136. -/
def Obligations.FrameRoundTrip : Prop :=
  ∀ (gen : Bits) (seq : Nat), 1 ≤ gen.length → gen.length ≤ 8 →
    (∀ payload : Bytes, payload.length ≤ 65535 →
      ∃ (f : Bytes) (r : Frame), bldData gen payload seq = .ok f ∧ parseFrame gen f = .ok r ∧
        r.matchFlag = true ∧ r.fields.version = 1 ∧ r.fields.type = 0 ∧
        r.fields.seq.toNat = seq % 256 ∧ r.fields.length.toNat = payload.length ∧
        r.fields.payload = payload) ∧
    (∀ positive : Bool,
      ∃ (f : Bytes) (r : Frame), bldAck gen seq positive = .ok f ∧ parseFrame gen f = .ok r ∧
        r.matchFlag = true ∧ r.fields.version = 1 ∧ r.fields.type = (if positive then 1 else 2) ∧
        r.fields.seq.toNat = seq % 256 ∧ r.fields.length = 0 ∧ r.fields.payload = [])

/-- The checksum byte of a generator of n bits is below `2^n`: its high `8 - n` bits are zero (R79, R132), so
a received checksum byte with one of them set never matches (R136). -/
def Obligations.ChecksumHasGeneratorWidth : Prop :=
  ∀ (gen : Bits) (d : Bytes), 1 ≤ gen.length → gen.length ≤ 8 →
    (checksum gen d).toNat = regRem gen (bytesToBits d) ∧ (checksum gen d).toNat < 2 ^ gen.length ∧
    ∀ c : Byte, 2 ^ gen.length ≤ c.toNat → matchFlag (checksum gen d) c = false

/-- Two byte sequences of one length have the same checksum exactly when `x^n + poly(gen)` divides the error
pattern between them: the spec's own inference R140, from R15, R102, R103 and R132. -/
def Obligations.UndetectedErrorsAreMultiples : Prop :=
  ∀ (gen : Bits) (d e : Bytes), 1 ≤ gen.length → gen.length ≤ 8 → d.length = e.length →
    (checksum gen d = checksum gen e ↔
      (Polynomial.X ^ gen.length + poly gen) ∣ poly (bytesToBits d) + poly (bytesToBits e))

/-! ### All host operations -/

/-- R40, R23: a pure operation reads and writes no register: when it completes it has issued one `RSP` and changed
nothing else, and in any state with the same parameters and the same count of free values it answers the same `RSP`. -/
def Obligations.PureOperationsTouchNoRegister : Prop :=
  ∀ (i : Instr) (s t : State), i.isWire = false → (∀ bytes isText, i ≠ .send bytes isText) →
    exec i s = .next t → ∃ r : Rsp, t = s.afterRsp r ∧
      ∀ u : State, u.params = s.params → u.free = s.free → exec i u = .next (u.afterRsp r)

/-- The model's stops, each by name. Buffers beyond a finite `BITS_MAX` or `BYTES_MAX` are outside the spec (R50, D28,
U17): the operation, or the message, is refused (log entry 8), for its operands or, when it raises no error, for its
working buffer or its result. A wire operation in a state whose `cur` names no
receive context faults (log entry 7). -/
def Obligations.StopsAreByName : Prop :=
  (∀ (gen : Bits) (data : Bytes) (s : State), buffersFit s.params gen.length data.length = false →
    exec (.crcreg gen data) s = .refused .overCapacity ∧ exec (.parse data gen) s = .refused .overCapacity ∧
    ∀ seq, exec (.blddata data gen seq) s = .refused .overCapacity) ∧
  (∀ (gen : Bits) (s : State) (seq : BitVec 32) (positive : Bool), buffersFit s.params gen.length 0 = false →
    exec (.bldack seq positive gen) s = .refused .overCapacity) ∧
  (∀ (gen msg : Bits) (s : State),
    buffersFit s.params (max gen.length msg.length) 0 = false ∨
      (divGenOK s.params gen = true ∧ buffersFit s.params (msg.length + (gen.length - 1)) 0 = false) →
    exec (.crcdiv gen msg) s = .refused .overCapacity ∧ exec (.crcenc gen msg) s = .refused .overCapacity ∧
    exec (.crcvfy gen msg) s = .refused .overCapacity ∧
    (s.params.hasTrace = true → exec (.divtrc gen msg) s = .refused .overCapacity)) ∧
  (∀ (b : Bits) (s : State), buffersFit s.params b.length ((b.length + 7) / 8) = false →
    exec (.b2bytes b) s = .refused .overCapacity) ∧
  (∀ (bs : Bytes) (s : State), buffersFit s.params (8 * bs.length) bs.length = false →
    exec (.bytes2b bs) s = .refused .overCapacity) ∧
  (∀ (bs : Bytes) (s : State), buffersFit s.params 0 bs.length = false →
    exec (.classify bs) s = .refused .overCapacity ∧ exec (.txt2pay bs) s = .refused .overCapacity ∧
    ∀ isText, exec (.send bs isText) s = .refused .overCapacity) ∧
  (∀ (s : State) (m : Bytes) (peer : Addr) (n : Nat), s.nextStimulus = .rx m peer →
    s.params.bytesMax = some n → n < m.length → step s = .refused .overCapacity) ∧
  (∀ (v q : Byte) (n : BitVec 16) (p : Bytes) (cs : Byte) (s : State), s.context s.cur = none →
    exec (.rxData v q n p cs) s = .fault .noContext ∧ exec (.rxAck v q n p cs) s = .fault .noContext ∧
    exec (.rxNack v q n p cs) s = .fault .noContext)

/-- No error stops the block (R200): `step` never faults. Its one refusal is `overCapacity`, and with unbounded
capacities every step answers a next state: the first is the model's choice of log entry 8, the second rests on log
entry 1, by which a stimulus whose step's guard is false changes nothing. -/
def Obligations.StepAlwaysGoesOn : Prop :=
  (∀ (s : State) (f : Fault), step s ≠ .fault f) ∧
  (∀ (s : State) (r : Refusal), step s = .refused r → r = .overCapacity) ∧
  (∀ s : State, s.params.bitsMax = none → s.params.bytesMax = none → ∃ t, step s = .next t)

/-! ### The sending side -/

/-- An accepted `SEND` (R152 to R155): in one atomic step the sequence number is allocated and the counter
advanced modulo 256, the DATA frame is built once, the wait-slot is registered, and `PHASE` becomes `Sending`;
nothing is issued and nothing else changes. -/
def Obligations.SendStarts : Prop :=
  ∀ (bytes : Bytes) (isText : Bool) (s : State), buffersFit s.params 0 bytes.length = true →
    s.phase = .idle → s.cfgFault = false →
    (if isText then textToPayload bytes else bytes).length ≤ 65535 →
    exec (.send bytes isText) s = .next
      { s with
        seqCtr := s.seqCtr + 1
        pr :=
          { seq := s.seqCtr
            frame := dataFrame s.cfgGen.bits (if isText then textToPayload bytes else bytes) s.seqCtr.toNat
            retriesUsed := 0, txPending := false, outcome := .none }
        ws := { valid := true, seq := s.seqCtr, result := .pending, signal := false }
        phase := .sending }

/-- A `SEND` that is not accepted (R152, R203, R206, R210): `Busy` and `ConfigError(1)` change no register;
`LengthError` leaves `SEQ_CTR` advanced and `PR.seq` written, and nothing else. -/
def Obligations.SendTurnedAway : Prop :=
  ∀ (bytes : Bytes) (isText : Bool) (s : State), buffersFit s.params 0 bytes.length = true →
    (s.phase ≠ .idle → ∃ r : Rsp,
      exec (.send bytes isText) s = .next (s.afterRsp r) ∧ r.status = 0x06 ∧ r.info = 0) ∧
    (s.phase = .idle → s.cfgFault = true → ∃ r : Rsp,
      exec (.send bytes isText) s = .next (s.afterRsp r) ∧ r.IsConfigError 1) ∧
    (s.phase = .idle → s.cfgFault = false →
      65535 < (if isText then textToPayload bytes else bytes).length → ∃ r : Rsp,
      exec (.send bytes isText) s =
        .next ({ s with seqCtr := s.seqCtr + 1, pr := { s.pr with seq := s.seqCtr } }.afterRsp r) ∧
      r.status = 0x03 ∧ r.info = 0)

/-- Step `S.TX` (R156): under its guard the frame goes to `PEER_ADDR`, the request is counted and awaited. -/
def Obligations.SenderTransmits : Prop :=
  ∀ s : State, s.nextStimulus = .run .sender → s.phase = .sending → s.pr.txPending = false →
    step s = .next
      { s.popStimulus with
        out := s.out ++ [.tx s.params.peerAddr s.pr.frame]
        pr := { s.pr with retriesUsed := s.pr.retriesUsed + 1, txPending := true } }

/-- Step `S.TXS` (R157), both answers. -/
def Obligations.SenderHearsTheTransport : Prop :=
  ∀ (s : State) (ok : Bool), s.nextStimulus = .txs (some .sender) ok → s.phase = .sending →
    s.pr.txPending = true →
    (ok = true → step s = .next
      { s.popStimulus with
        pr := { s.pr with txPending := false }
        timer := 2 * s.params.ticksPerUnit
        phase := .awaitingAck }) ∧
    (ok = false → step s = .next
      { s.popStimulus with
        pr := { s.pr with txPending := false, outcome := .sendError }
        ws := { s.ws with result := .failed }
        phase := .failed })

/-- Steps `S.WAKE` and `S.TIMEOUT` (R158, R159): a stored reply is read whatever the timer says, an ACK ends
the retries, any other reply starts the pause after a NACK; the timeout needs an unset signal and a timer at 0.
The last clause is the model's choice of log entry 1: with neither guard true, an attempt at a step of `SENDER` changes
nothing. -/
def Obligations.SenderWakesOrTimesOut : Prop :=
  ∀ s : State, s.nextStimulus = .run .sender → s.phase = .awaitingAck →
    (s.ws.signal = true → s.ws.result = .acked →
      step s = .next { s.popStimulus with pr := { s.pr with outcome := .success }, phase := .acked }) ∧
    (s.ws.signal = true → s.ws.result ≠ .acked →
      step s = .next
        { s.popStimulus with pauseKind := true, timer := s.params.ticksPerUnit / 5, phase := .pausing }) ∧
    (s.ws.signal = false → s.timer = 0 →
      step s = .next
        { s.popStimulus with
          ws := { s.ws with result := .timedOut }
          pauseKind := false
          timer := s.params.ticksPerUnit / 5
          phase := .pausing }) ∧
    (s.ws.signal = false → s.timer ≠ 0 → step s = .next s.popStimulus)

/-- Step `S.PAUSE_END` (R160): the signal is cleared only after a NACK; with fewer than 3 transmissions the
frame is sent again, else the `SEND` has failed. -/
def Obligations.PauseEnds : Prop :=
  ∀ s : State, s.nextStimulus = .run .sender → s.phase = .pausing → s.timer = 0 →
    (s.pr.retriesUsed.toNat < 3 →
      step s = .next
        { s.popStimulus with
          ws := { s.ws with signal := s.ws.signal && !s.pauseKind }
          phase := .sending }) ∧
    (s.pr.retriesUsed.toNat = 3 →
      step s = .next
        { s.popStimulus with
          ws := { s.ws with signal := s.ws.signal && !s.pauseKind, result := .failed }
          pr := { s.pr with outcome := .exhausted }
          phase := .failed })

/-- Step `S.FINISH` (R161): the slot is removed whatever the outcome, the status of the outcome is answered,
and `PHASE` is `Idle` again. That `PR`, `PAUSE_KIND`, `TIMER` and the other fields of `WS` keep their values is the
model's reading, log entry 10. The outcome `None`, which `BlockInv` shuts out in these phases, is log entry 12. -/
def Obligations.SendFinishes : Prop :=
  ∀ s : State, s.nextStimulus = .run .sender → s.phase = .acked ∨ s.phase = .failed →
    s.pr.outcome ≠ .none →
    ∃ r : Rsp,
      step s = .next { s.popStimulus.afterRsp r with ws := { s.ws with valid := false }, phase := .idle } ∧
      (s.pr.outcome = .success → r.IsOK) ∧
      (s.pr.outcome = .exhausted → r.status = 0x05 ∧ r.info = 3) ∧
      (s.pr.outcome = .sendError → r.status = 0x04 ∧ r.info = 0)

/-- Step `T.TICK` (R165): the timer runs in the two waiting phases only, and stops at 0. -/
def Obligations.TimerTicks : Prop :=
  ∀ s : State, s.nextStimulus = .tick →
    (s.phase = .awaitingAck ∨ s.phase = .pausing → 0 < s.timer →
      step s = .next { s.popStimulus with timer := s.timer - 1 }) ∧
    ((s.phase ≠ .awaitingAck ∧ s.phase ≠ .pausing) ∨ s.timer = 0 → step s = .next s.popStimulus)

/-- R151: `PHASE` makes the transitions of the table, under their conditions, and no other; a reset alone takes
it to `Idle` from elsewhere. `Idle` to `Sending`: the `SEND` was accepted and its DATA frame is built. `AwaitingAck` to
`Pausing`: the timeout, or a stored result that is not `Acked`, which is `Nacked` in every state with `BlockInv`. -/
def Obligations.SenderTransitionsAreTheTable : Prop :=
  ∀ s t : State, step s = .next t → isReset s.nextStimulus = false → t.phase ≠ s.phase →
    (s.phase = .idle ∧ t.phase = .sending ∧ s.acceptsSend s.nextStimulus = true ∧
      ∃ payload : Bytes, payload.length ≤ 65535 ∧
        t.pr.frame = dataFrame s.cfgGen.bits payload s.seqCtr.toNat ∧ t.pr.seq = s.seqCtr) ∨
    (s.phase = .sending ∧ t.phase = .awaitingAck ∧ s.pr.txPending = true ∧
      s.nextStimulus = .txs (some .sender) true) ∨
    (s.phase = .sending ∧ t.phase = .failed ∧ s.pr.txPending = true ∧ t.pr.outcome = .sendError ∧
      s.nextStimulus = .txs (some .sender) false) ∨
    (s.phase = .awaitingAck ∧ t.phase = .acked ∧ s.ws.signal = true ∧ s.ws.result = .acked) ∨
    (s.phase = .awaitingAck ∧ t.phase = .pausing ∧ t.pauseKind = s.ws.signal ∧
      (s.ws.signal = true → s.ws.result ≠ .acked ∧ (BlockInv s → s.ws.result = .nacked)) ∧
      (s.ws.signal = false → s.timer = 0)) ∨
    (s.phase = .pausing ∧ t.phase = .sending ∧ s.timer = 0 ∧ s.pr.retriesUsed.toNat < 3) ∨
    (s.phase = .pausing ∧ t.phase = .failed ∧ t.pr.outcome = .exhausted ∧ s.timer = 0 ∧
      s.pr.retriesUsed.toNat = 3) ∨
    ((s.phase = .acked ∨ s.phase = .failed) ∧ t.phase = .idle ∧ t.ws.valid = false)

/-- R34, R65: no step between `S.BUILD` and `S.FINISH` writes `PR.frame` or `PR.seq`, so every retry sends the
same bytes. -/
def Obligations.FrameNeverChangesWhileSending : Prop :=
  ∀ s t : State, step s = .next t → isReset s.nextStimulus = false → s.phase ≠ .idle →
    t.pr.frame = s.pr.frame ∧ t.pr.seq = s.pr.seq

/-- R153, R28: the counter advances, modulo 256, once per accepted `SEND` and by nothing else but a reset. -/
def Obligations.CounterAdvancesOncePerSend : Prop :=
  ∀ s t : State, step s = .next t → isReset s.nextStimulus = false →
    t.seqCtr = if s.acceptsSend s.nextStimulus then s.seqCtr + 1 else s.seqCtr

/-- R208(c), R63: a set signal stays set until `SENDER` clears it at the end of a pause after a NACK, or a new
`SEND` registers its slot; a reset aside, nothing else clears it. -/
def Obligations.SignalIsALatch : Prop :=
  ∀ s t : State, step s = .next t → isReset s.nextStimulus = false →
    s.ws.signal = true → t.ws.signal = false →
    (s.nextStimulus = .run .sender ∧ s.phase = .pausing ∧ s.pauseKind = true ∧ s.timer = 0) ∨
    s.acceptsSend s.nextStimulus = true

/-- The spec's own inferences R163(b) and (e), from R152 to R161 and R165: an accepted `SEND` whose three transmissions the transport takes and nobody answers makes
exactly three transmissions of the same bytes, over `3 * (ACK_TIMEOUT_TICKS + RETRY_PAUSE_TICKS)` ticks, and
answers `Exhausted`. -/
def Obligations.UnansweredSendIsExhausted : Prop :=
  ∀ (s : State) (bytes : Bytes) (isText : Bool) (rest : List Config.Stimulus),
    s.sched = lostSend s.params bytes isText ++ rest → s.phase = .idle → s.cfgFault = false →
    buffersFit s.params 0 bytes.length = true →
    (if isText then textToPayload bytes else bytes).length ≤ 65535 →
    (lostSend s.params bytes isText).count .tick =
      3 * (ackTimeoutTicks s.params + retryPauseTicks s.params) ∧
    ∃ (t : State) (r : Rsp) (f : Bytes),
      Host.Core.run Sys2Proof.core (lostSend s.params bytes isText).length s = .next t ∧
      f = dataFrame s.cfgGen.bits (if isText then textToPayload bytes else bytes) s.seqCtr.toNat ∧
      t.out = s.out ++ [.tx s.params.peerAddr f, .tx s.params.peerAddr f, .tx s.params.peerAddr f, .rsp r] ∧
      r.status = 0x05 ∧ r.info = 3 ∧ t.phase = .idle ∧ t.ws.valid = false ∧ t.seqCtr = s.seqCtr + 1 ∧
      t.delivered = s.delivered ∧ t.rxc = s.rxc ∧ t.sched = rest

/-! ### The receiving side -/

/-- Step `X.ACCEPT` (R170): while fewer than `RX_CONTEXTS` contexts exist a message gets a context of its own,
in `Parse`, under an index no context has; the other contexts and all else stay as they are. With all contexts
taken the message stays with the transport (R208(a)). -/
def Obligations.MessagesGetTheirOwnContext : Prop :=
  ∀ (s : State) (m : Bytes) (peer : Addr), s.ContextsRising → s.nextStimulus = .rx m peer →
    (∀ n, s.params.bytesMax = some n → m.length ≤ n) →
    ((∀ n, s.params.rxContexts = some n → s.rxc.length < n) →
      ∃ (k : Nat) (c : Context) (t : State), step s = .next t ∧ s.context k = none ∧ t.context k = some c ∧
        c.bytes = m ∧ c.peer = peer ∧ c.step = .parse ∧ (∀ j, j ≠ k → t.context j = s.context j) ∧
        t = { s.popStimulus with rxc := t.rxc, free := t.free }) ∧
    ((∃ n, s.params.rxContexts = some n ∧ n ≤ s.rxc.length) → step s = .next s.popStimulus)

/-- `X.PARSE` on a frame of each wire operation (R171, R172): while `CFG_FAULT = 0` the frame is stored with its
match flag and the context goes on to `TestInsert` or `Nack` for DATA by the match flag, to `AckNack` for ACK
and NACK whatever it is; while `CFG_FAULT = 1` the context ends with `EV_CONFIG(1)`. Nothing else changes. -/
def Obligations.WireOperationsDispatch : Prop :=
  ∀ (v q : Byte) (n : BitVec 16) (p : Bytes) (cs : Byte) (s : State) (c : Context), s.ContextsRising →
    s.context s.cur = some c → c.step = .parse →
    ∃ td ta tn : State,
      exec (.rxData v q n p cs) s = .next td ∧ exec (.rxAck v q n p cs) s = .next ta ∧
      exec (.rxNack v q n p cs) s = .next tn ∧
      (s.cfgFault = false →
        td = { s with rxc := td.rxc } ∧ ta = { s with rxc := ta.rxc } ∧ tn = { s with rxc := tn.rxc } ∧
        (∃ m : Bool, m = (checksum s.cfgGen.bits ([v, 0, q] ++ memBytes 2 n.toNat ++ p) == cs) ∧
          td.context s.cur = some
            { c with
              frame :=
                { fields := { version := v, type := 0, seq := q, length := n, payload := p, checksum := cs }
                  matchFlag := m }
              step := if m then .testInsert else .nack }) ∧
        (∃ m : Bool, m = (checksum s.cfgGen.bits ([v, 1, q] ++ memBytes 2 n.toNat ++ p) == cs) ∧
          ta.context s.cur = some
            { c with
              frame :=
                { fields := { version := v, type := 1, seq := q, length := n, payload := p, checksum := cs }
                  matchFlag := m }
              step := .ackNack }) ∧
        (∃ m : Bool, m = (checksum s.cfgGen.bits ([v, 2, q] ++ memBytes 2 n.toNat ++ p) == cs) ∧
          tn.context s.cur = some
            { c with
              frame :=
                { fields := { version := v, type := 2, seq := q, length := n, payload := p, checksum := cs }
                  matchFlag := m }
              step := .ackNack }) ∧
        ∀ j, j ≠ s.cur → td.context j = s.context j ∧ ta.context j = s.context j ∧
          tn.context j = s.context j) ∧
      (s.cfgFault = true →
        ∀ t ∈ [td, ta, tn], t = { s with rxc := t.rxc, out := s.out ++ [.evt { code := 0x05, arg := 1 }] } ∧
          t.context s.cur = none ∧ ∀ j, j ≠ s.cur → t.context j = s.context j)

/-- A message that selects no wire operation (R171, R172, R210): one event, the first that applies of
`EV_CONFIG(1)`, `EV_FORMAT(1)`, `EV_FORMAT(2)`, `EV_RESERVED_TYPE(type)`; the context ends; no protocol
action. -/
def Obligations.UnusableMessagesDropped : Prop :=
  ∀ (s : State) (k : Nat) (c : Context) (e : WireReject), s.ContextsRising →
    s.nextStimulus = .run (.context k) → s.context k = some c → c.step = .parse →
    decode (.message c.bytes) = .error (.wire e) →
    ∃ (t : State) (ev : Evt), step s = .next t ∧
      t = { s.popStimulus with cur := k, rxc := t.rxc, out := s.out ++ [.evt ev] } ∧
      t.context k = none ∧ (∀ j, j ≠ k → t.context j = s.context j) ∧
      (s.cfgFault = true → ev = { code := 0x05, arg := 1 }) ∧
      (s.cfgFault = false → c.bytes.length < 6 → ev = { code := 0x02, arg := 1 }) ∧
      (s.cfgFault = false → e = .format .lengthMismatch → ev = { code := 0x02, arg := 2 }) ∧
      (s.cfgFault = false → ∀ ty : Byte, e = .reservedType ty →
        ev = { code := 0x03, arg := c.bytes.getD 1 0 } ∧ 3 ≤ (c.bytes.getD 1 0).toNat)

/-- `RX.DATA` with a match, the test-and-insert (R174, `X.DATA_OK`): the sequence number is in the delivered-set
afterwards, every other one is as before, and the payload is to be delivered iff it was not there. -/
def Obligations.MatchedDataIsInsertedOnce : Prop :=
  ∀ (v q : Byte) (n : BitVec 16) (p : Bytes) (cs : Byte) (s : State) (c : Context),
    s.context s.cur = some c → c.step = .testInsert →
    ∃ t : State, exec (.rxData v q n p cs) s = .next t ∧
      t = { s with rxc := t.rxc, delivered := t.delivered } ∧
      (∀ b : Byte, t.isDelivered b = (s.isDelivered b || b == c.frame.fields.seq)) ∧
      t.context s.cur = some
        { c with
          isNew := !s.isDelivered c.frame.fields.seq
          step := if s.isDelivered c.frame.fields.seq then .ack else .deliver } ∧
      ∀ j, j ≠ s.cur → t.context j = s.context j

/-- `RX.DATA`: the NACK of a mismatch (R173, `X.NACK`), the delivery (R175, `X.DELIVER`) and the ACK (R176,
`X.ACK`) of a match, each one step that issues one transaction and moves the context on. -/
def Obligations.DataContextsReplyAndDeliver : Prop :=
  ∀ (v q : Byte) (n : BitVec 16) (p : Bytes) (cs : Byte) (s : State) (c : Context),
    s.context s.cur = some c →
    (c.step = .nack → ∃ t : State, exec (.rxData v q n p cs) s = .next t ∧
      t = { s with
        rxc := t.rxc
        out := s.out ++ [.tx s.params.peerAddr (ackFrame s.cfgGen.bits c.frame.fields.seq.toNat false)] } ∧
      t.context s.cur = some { c with step := .nackWait } ∧ ∀ j, j ≠ s.cur → t.context j = s.context j) ∧
    (c.step = .deliver → ∃ t : State, exec (.rxData v q n p cs) s = .next t ∧
      t = { s with rxc := t.rxc, out := s.out ++ [.up c.frame.fields.payload] } ∧
      t.context s.cur = some { c with step := .ack } ∧ ∀ j, j ≠ s.cur → t.context j = s.context j) ∧
    (c.step = .ack → ∃ t : State, exec (.rxData v q n p cs) s = .next t ∧
      t = { s with
        rxc := t.rxc
        out := s.out ++ [.tx s.params.peerAddr (ackFrame s.cfgGen.bits c.frame.fields.seq.toNat true)] } ∧
      t.context s.cur = some { c with step := .ackWait } ∧ ∀ j, j ≠ s.cur → t.context j = s.context j)

/-- The transport's answer to a NACK or an ACK (R173 `X.NACK_TXS`, R176 `X.ACK_TXS`): the context ends; a
refusal is reported; `EV_CHECKSUM_FAIL` follows every NACK. -/
def Obligations.RepliesEndTheirContext : Prop :=
  ∀ (s : State) (k : Nat) (c : Context) (ok : Bool), s.ContextsRising →
    s.nextStimulus = .txs (some (.context k)) ok → s.context k = some c →
    c.step = .nackWait ∨ c.step = .ackWait →
    ∃ t : State, step s = .next t ∧
      t = { s.popStimulus with
        rxc := t.rxc
        out := s.out ++
          (if ok then [] else [.evt { code := 0x04, arg := c.frame.fields.seq }]) ++
          (if c.step = .nackWait then [.evt { code := 0x01, arg := c.frame.fields.seq }] else []) } ∧
      t.context k = none ∧ ∀ j, j ≠ k → t.context j = s.context j

/-- `RX.ACK` and `RX.NACK` (R177, `X.ACKNACK`): if the slot of the frame's sequence number is registered, the
result is stored and the signal set, else nothing; nothing is issued, the match flag is not consulted, and the
context ends. -/
def Obligations.RepliesAreStoredInTheirSlot : Prop :=
  ∀ (v q : Byte) (n : BitVec 16) (p : Bytes) (cs : Byte) (s : State) (c : Context), s.ContextsRising →
    s.context s.cur = some c → c.step = .ackNack →
    ∃ t : State,
      (c.frame.fields.type = 1 → exec (.rxAck v q n p cs) s = .next t) ∧
      (c.frame.fields.type = 2 → exec (.rxNack v q n p cs) s = .next t) ∧
      t = { s with rxc := t.rxc, ws := t.ws } ∧ t.context s.cur = none ∧
      (∀ j, j ≠ s.cur → t.context j = s.context j) ∧
      t.ws =
        if s.ws.valid = true ∧ s.ws.seq = c.frame.fields.seq then
          { s.ws with result := if c.frame.fields.type = 1 then .acked else .nacked, signal := true }
        else s.ws

/-- The spec's own inference R178, from R152 to R177: a step of a receive context, an answer to it and an arriving message never touch `PHASE`, `PR`,
`TIMER`, `PAUSE_KIND` or `SEQ_CTR`; a step of `SENDER`, an answer to it and a tick never touch `DELIVERED` or
a receive context. The only coupling is `WS`. -/
def Obligations.SidesAreCoupledByTheSlotAlone : Prop :=
  ∀ s t : State, step s = .next t →
    ((∃ k ok m peer, s.nextStimulus = .run (.context k) ∨ s.nextStimulus = .txs (some (.context k)) ok ∨
        s.nextStimulus = .rx m peer) →
      t.phase = s.phase ∧ t.pr = s.pr ∧ t.timer = s.timer ∧ t.pauseKind = s.pauseKind ∧
      t.seqCtr = s.seqCtr ∧ t.cfgGen = s.cfgGen ∧ t.cfgFault = s.cfgFault) ∧
    ((∃ ok, s.nextStimulus = .run .sender ∨ s.nextStimulus = .txs (some .sender) ok ∨
        s.nextStimulus = .tick) →
      t.delivered = s.delivered ∧ t.rxc = s.rxc)

/-- R36, R42(e): no step but a reset clears a bit of `DELIVERED`, and a bit is set only by `X.DATA_OK` of a
context that holds a frame of that sequence number. -/
def Obligations.DeliveredSetOnlyGrows : Prop :=
  ∀ (s t : State) (b : Byte), step s = .next t → isReset s.nextStimulus = false →
    (s.isDelivered b = true → t.isDelivered b = true) ∧
    (s.isDelivered b = false → t.isDelivered b = true →
      ∃ k c, s.nextStimulus = .run (.context k) ∧ s.context k = some c ∧ c.step = .testInsert ∧
        c.frame.fields.seq = b)

/-- Deliveries and insertions are one for one: every step but a reset adds as many deliveries, made (`UP`
transactions) or about to be made (contexts in `Deliver`), as it adds sequence numbers to the delivered-set (R174 to
R176; from it follow the bound of R179 and the spec's inference R180(b)). -/
def Obligations.DeliveriesMatchInsertions : Prop :=
  ∀ s t : State, s.ContextsRising → step s = .next t → isReset s.nextStimulus = false →
    upCount t.out + t.deliverCount + s.deliveredCount = upCount s.out + s.deliverCount + t.deliveredCount

/-- An answer of the transport that no agent awaits is discarded (R232, U20). -/
def Obligations.UnawaitedAnswersDiscarded : Prop :=
  ∀ (s : State) (target : Option Config.Agent) (ok : Bool), s.nextStimulus = .txs target ok →
    (target = some .sender → s.phase ≠ .sending ∨ s.pr.txPending = false) →
    (∀ k c, target = some (.context k) → s.context k = some c → c.step ≠ .nackWait ∧ c.step ≠ .ackWait) →
    step s = .next s.popStimulus

/-! ### Reset and the invariant -/

/-- What the spec states of the state after reset (R41, R27), for the model's `State.reset`. That `CFG_FAULT` is 0 in it
rests, with R27, on the model's choice `GEN = "1011"` (log entry 3); what else the model chooses for the reset state (log
entries 6 and 9) is not stated. -/
def Obligations.ResetStateIsTheTable : Prop :=
  State.reset.cfgGen = { len := State.reset.params.gen.length, bits := State.reset.params.gen } ∧
  (State.reset.cfgFault = true ↔ State.reset.params.gen.length < 1 ∨ 8 < State.reset.params.gen.length) ∧
  State.reset.cfgFault = false ∧ State.reset.seqCtr = 0 ∧ State.reset.ws.valid = false ∧
  State.reset.phase = .idle ∧ State.reset.timer = 0 ∧ State.reset.delivered = 0 ∧
  State.reset.rxc = [] ∧ State.reset.params.wf = true

/-- `RST` (R230, R231, R232): in any state, one step that samples the parameters and puts every register in
its reset value; no `RSP` is issued for an abandoned `SEND`, no context is left; what was issued stays
issued. -/
def Obligations.ResetStepClearsEverything : Prop :=
  ∀ (s : State) (p : Config.Params), s.nextStimulus = .rst p →
    ∃ t : State, step s = .next t ∧ t.params = p ∧ t.cfgGen = { len := p.gen.length, bits := p.gen } ∧
      (t.cfgFault = true ↔ p.gen.length < 1 ∨ 8 < p.gen.length) ∧ t.seqCtr = 0 ∧ t.ws.valid = false ∧
      t.phase = .idle ∧ t.timer = 0 ∧ t.delivered = 0 ∧ t.rxc = [] ∧ t.out = s.out

/-- The invariant of the block holds after reset, whatever the parameters. -/
def Obligations.InvariantHoldsAfterReset : Prop :=
  BlockInv State.reset ∧ ∀ p : Config.Params, BlockInv (State.resetWith p)

/-- Every step from every state keeps the invariant of the block: the clauses of the spec's own inference R42, and
what the step rules R152 to R177 keep besides (`BlockInv`; its clause `replyStored` is the model's reading of R163(a),
log entry 13). -/
def Obligations.InvariantKeptByEveryStep : Prop :=
  ∀ s t : State, BlockInv s → step s = .next t → BlockInv t
end

