-- ==== Sys2Proof/Laws/Codec.lean ====
section
/-! SUPPORT. The byte order and the format part of `PARSE`, said once: what `memBytes` writes, `memRead` reads
back; when `parseFields` answers, and with what; which messages decode. -/

namespace Sys2Proof

@[simp] theorem memBytes_length (n v : Nat) : (memBytes n v).length = n := by
  induction n with
  | zero => rfl
  | succ n ih => simp [memBytes, ih]

/-- The two bytes of a 16-bit integer, most significant first (R53). -/
theorem memBytes_two (v : Nat) : memBytes 2 v = [BitVec.ofNat 8 (v / 256), BitVec.ofNat 8 v] := by
  simp [memBytes]

/-- Reading back the two bytes of a 16-bit integer (R53). -/
theorem memRead_memBytes_two {v : Nat} (h : v < 65536) (pre post : Bytes) :
    memRead (pre ++ memBytes 2 v ++ post) pre.length 2 = v := by
  simp [memRead, memBytes_two]
  omega

/-- When `parseFields` answers, and with what fields (R136, R56). -/
theorem parseFields_ok {f : Bytes} {x : Fields} :
    parseFields f = .ok x ↔ 6 ≤ f.length ∧ memRead f 3 2 = f.length - 6 ∧
      x =
        { version := f.getD 0 0
          type := f.getD 1 0
          seq := f.getD 2 0
          length := BitVec.ofNat 16 (f.length - 6)
          payload := (f.drop 5).take (f.length - 6)
          checksum := f.getD (f.length - 1) 0 } := by
  have hl : 6 ≤ f.length → ((f.drop 5).take (f.length - 6)).length = f.length - 6 := by
    intro h
    simp
    omega
  have hmin : Config.minFrameLen = 6 := rfl
  unfold parseFields
  rw [hmin]
  by_cases h1 : f.length < 6
  · simp only [h1, if_true, reduceCtorEq, false_iff]
    omega
  · have h6 : 6 ≤ f.length := by omega
    have hlen : ((f.drop Config.headerLen).take (f.length - 6)).length = f.length - 6 := hl h6
    simp only [h1, if_false, hlen]
    by_cases h2 : memRead f 3 2 = f.length - 6
    · simp only [h2, ne_eq, not_true_eq_false, if_false, Except.ok.injEq, h6, true_and]
      exact eq_comm
    · simp [h2]

/-- A message decodes when it is a frame whose type byte is not reserved (R80, R82). -/
theorem decode_message_ok {m : Bytes} {i : Instr} :
    decode (.message m) = .ok i ↔ ∃ f, parseFields m = .ok f ∧ selectWire f = .ok i := by
  simp only [decode, decodeMessage]
  cases parseFields m with
  | error e => simp
  | ok f => cases h : selectWire f <;> simp [h]

/-- Why a message does not decode (R82). -/
theorem decode_message_error {m : Bytes} {e : WireReject} :
    decode (.message m) = .error (.wire e) ↔ decodeMessage m = .error e := by
  simp only [decode]
  cases decodeMessage m <;> simp

end Sys2Proof
end

