-- ==== Sys2Proof/Laws/State.lean ====
section
/-! SUPPORT. What each named update of the state leaves in each field. -/

namespace Sys2Proof.Machine

open Sys2Proof

/-! ### `emit` -/

@[simp] theorem State.emit_params (s : State) (o : PortOut) : (s.emit o).params = s.params := rfl
@[simp] theorem State.emit_cfgGen (s : State) (o : PortOut) : (s.emit o).cfgGen = s.cfgGen := rfl
@[simp] theorem State.emit_cfgFault (s : State) (o : PortOut) : (s.emit o).cfgFault = s.cfgFault := rfl
@[simp] theorem State.emit_seqCtr (s : State) (o : PortOut) : (s.emit o).seqCtr = s.seqCtr := rfl
@[simp] theorem State.emit_ws (s : State) (o : PortOut) : (s.emit o).ws = s.ws := rfl
@[simp] theorem State.emit_pr (s : State) (o : PortOut) : (s.emit o).pr = s.pr := rfl
@[simp] theorem State.emit_phase (s : State) (o : PortOut) : (s.emit o).phase = s.phase := rfl
@[simp] theorem State.emit_pauseKind (s : State) (o : PortOut) : (s.emit o).pauseKind = s.pauseKind := rfl
@[simp] theorem State.emit_timer (s : State) (o : PortOut) : (s.emit o).timer = s.timer := rfl
@[simp] theorem State.emit_delivered (s : State) (o : PortOut) : (s.emit o).delivered = s.delivered := rfl
@[simp] theorem State.emit_rxc (s : State) (o : PortOut) : (s.emit o).rxc = s.rxc := rfl
@[simp] theorem State.emit_cur (s : State) (o : PortOut) : (s.emit o).cur = s.cur := rfl
@[simp] theorem State.emit_sched (s : State) (o : PortOut) : (s.emit o).sched = s.sched := rfl
@[simp] theorem State.emit_out (s : State) (o : PortOut) : (s.emit o).out = s.out ++ [o] := rfl
@[simp] theorem State.emit_free (s : State) (o : PortOut) : (s.emit o).free = s.free := rfl

/-! ### `respond` -/

@[simp] theorem State.respond_params (s : State) (fill : Rsp → Rsp) :
    (s.respond fill).params = s.params := rfl
@[simp] theorem State.respond_cfgGen (s : State) (fill : Rsp → Rsp) :
    (s.respond fill).cfgGen = s.cfgGen := rfl
@[simp] theorem State.respond_cfgFault (s : State) (fill : Rsp → Rsp) :
    (s.respond fill).cfgFault = s.cfgFault := rfl
@[simp] theorem State.respond_seqCtr (s : State) (fill : Rsp → Rsp) :
    (s.respond fill).seqCtr = s.seqCtr := rfl
@[simp] theorem State.respond_ws (s : State) (fill : Rsp → Rsp) : (s.respond fill).ws = s.ws := rfl
@[simp] theorem State.respond_pr (s : State) (fill : Rsp → Rsp) : (s.respond fill).pr = s.pr := rfl
@[simp] theorem State.respond_phase (s : State) (fill : Rsp → Rsp) : (s.respond fill).phase = s.phase := rfl
@[simp] theorem State.respond_pauseKind (s : State) (fill : Rsp → Rsp) :
    (s.respond fill).pauseKind = s.pauseKind := rfl
@[simp] theorem State.respond_timer (s : State) (fill : Rsp → Rsp) : (s.respond fill).timer = s.timer := rfl
@[simp] theorem State.respond_delivered (s : State) (fill : Rsp → Rsp) :
    (s.respond fill).delivered = s.delivered := rfl
@[simp] theorem State.respond_rxc (s : State) (fill : Rsp → Rsp) : (s.respond fill).rxc = s.rxc := rfl
@[simp] theorem State.respond_cur (s : State) (fill : Rsp → Rsp) : (s.respond fill).cur = s.cur := rfl
@[simp] theorem State.respond_sched (s : State) (fill : Rsp → Rsp) : (s.respond fill).sched = s.sched := rfl
@[simp] theorem State.respond_out (s : State) (fill : Rsp → Rsp) :
    (s.respond fill).out = s.out ++ [.rsp (fill (Config.freeRsp s.free))] := rfl
@[simp] theorem State.respond_free (s : State) (fill : Rsp → Rsp) : (s.respond fill).free = s.free + 1 := rfl

/-! ### `answer` -/

@[simp] theorem State.answer_params (s : State) (fill : Rsp → Rsp) : (s.answer fill).params = s.params := rfl
@[simp] theorem State.answer_cfgGen (s : State) (fill : Rsp → Rsp) : (s.answer fill).cfgGen = s.cfgGen := rfl
@[simp] theorem State.answer_cfgFault (s : State) (fill : Rsp → Rsp) :
    (s.answer fill).cfgFault = s.cfgFault := rfl
@[simp] theorem State.answer_seqCtr (s : State) (fill : Rsp → Rsp) : (s.answer fill).seqCtr = s.seqCtr := rfl
@[simp] theorem State.answer_ws (s : State) (fill : Rsp → Rsp) : (s.answer fill).ws = s.ws := rfl
@[simp] theorem State.answer_pr (s : State) (fill : Rsp → Rsp) : (s.answer fill).pr = s.pr := rfl
@[simp] theorem State.answer_phase (s : State) (fill : Rsp → Rsp) : (s.answer fill).phase = s.phase := rfl
@[simp] theorem State.answer_pauseKind (s : State) (fill : Rsp → Rsp) :
    (s.answer fill).pauseKind = s.pauseKind := rfl
@[simp] theorem State.answer_timer (s : State) (fill : Rsp → Rsp) : (s.answer fill).timer = s.timer := rfl
@[simp] theorem State.answer_delivered (s : State) (fill : Rsp → Rsp) :
    (s.answer fill).delivered = s.delivered := rfl
@[simp] theorem State.answer_rxc (s : State) (fill : Rsp → Rsp) : (s.answer fill).rxc = s.rxc := rfl
@[simp] theorem State.answer_cur (s : State) (fill : Rsp → Rsp) : (s.answer fill).cur = s.cur := rfl
@[simp] theorem State.answer_sched (s : State) (fill : Rsp → Rsp) : (s.answer fill).sched = s.sched := rfl
@[simp] theorem State.answer_out (s : State) (fill : Rsp → Rsp) :
    (s.answer fill).out = s.out ++ [.rsp { fill (Config.freeRsp s.free) with status := statusCode .ok, info := 0 }] := rfl
@[simp] theorem State.answer_free (s : State) (fill : Rsp → Rsp) : (s.answer fill).free = s.free + 1 := rfl

/-! ### `raise` -/

@[simp] theorem State.raise_params (s : State) (e : Err) : (s.raise e).params = s.params := rfl
@[simp] theorem State.raise_cfgGen (s : State) (e : Err) : (s.raise e).cfgGen = s.cfgGen := rfl
@[simp] theorem State.raise_cfgFault (s : State) (e : Err) : (s.raise e).cfgFault = s.cfgFault := rfl
@[simp] theorem State.raise_seqCtr (s : State) (e : Err) : (s.raise e).seqCtr = s.seqCtr := rfl
@[simp] theorem State.raise_ws (s : State) (e : Err) : (s.raise e).ws = s.ws := rfl
@[simp] theorem State.raise_pr (s : State) (e : Err) : (s.raise e).pr = s.pr := rfl
@[simp] theorem State.raise_phase (s : State) (e : Err) : (s.raise e).phase = s.phase := rfl
@[simp] theorem State.raise_pauseKind (s : State) (e : Err) : (s.raise e).pauseKind = s.pauseKind := rfl
@[simp] theorem State.raise_timer (s : State) (e : Err) : (s.raise e).timer = s.timer := rfl
@[simp] theorem State.raise_delivered (s : State) (e : Err) : (s.raise e).delivered = s.delivered := rfl
@[simp] theorem State.raise_rxc (s : State) (e : Err) : (s.raise e).rxc = s.rxc := rfl
@[simp] theorem State.raise_cur (s : State) (e : Err) : (s.raise e).cur = s.cur := rfl
@[simp] theorem State.raise_sched (s : State) (e : Err) : (s.raise e).sched = s.sched := rfl
@[simp] theorem State.raise_out (s : State) (e : Err) :
    (s.raise e).out = s.out ++ [.rsp { Config.freeRsp s.free with status := statusCode e.status, info := e.info }] := rfl
@[simp] theorem State.raise_free (s : State) (e : Err) : (s.raise e).free = s.free + 1 := rfl

/-! ### `endContext` -/

@[simp] theorem State.endContext_params (s : State) (k : Nat) : (s.endContext k).params = s.params := rfl
@[simp] theorem State.endContext_cfgGen (s : State) (k : Nat) : (s.endContext k).cfgGen = s.cfgGen := rfl
@[simp] theorem State.endContext_cfgFault (s : State) (k : Nat) :
    (s.endContext k).cfgFault = s.cfgFault := rfl
@[simp] theorem State.endContext_seqCtr (s : State) (k : Nat) : (s.endContext k).seqCtr = s.seqCtr := rfl
@[simp] theorem State.endContext_ws (s : State) (k : Nat) : (s.endContext k).ws = s.ws := rfl
@[simp] theorem State.endContext_pr (s : State) (k : Nat) : (s.endContext k).pr = s.pr := rfl
@[simp] theorem State.endContext_phase (s : State) (k : Nat) : (s.endContext k).phase = s.phase := rfl
@[simp] theorem State.endContext_pauseKind (s : State) (k : Nat) :
    (s.endContext k).pauseKind = s.pauseKind := rfl
@[simp] theorem State.endContext_timer (s : State) (k : Nat) : (s.endContext k).timer = s.timer := rfl
@[simp] theorem State.endContext_delivered (s : State) (k : Nat) :
    (s.endContext k).delivered = s.delivered := rfl
@[simp] theorem State.endContext_rxc (s : State) (k : Nat) :
    (s.endContext k).rxc = eraseContext k s.rxc := rfl
@[simp] theorem State.endContext_cur (s : State) (k : Nat) : (s.endContext k).cur = s.cur := rfl
@[simp] theorem State.endContext_sched (s : State) (k : Nat) : (s.endContext k).sched = s.sched := rfl
@[simp] theorem State.endContext_out (s : State) (k : Nat) : (s.endContext k).out = s.out := rfl
@[simp] theorem State.endContext_free (s : State) (k : Nat) : (s.endContext k).free = s.free := rfl

/-! ### `putContext` -/

@[simp] theorem State.putContext_params (s : State) (k : Nat) (c : Context) :
    (s.putContext k c).params = s.params := by
  unfold State.putContext; split <;> rfl
@[simp] theorem State.putContext_cfgGen (s : State) (k : Nat) (c : Context) :
    (s.putContext k c).cfgGen = s.cfgGen := by
  unfold State.putContext; split <;> rfl
@[simp] theorem State.putContext_cfgFault (s : State) (k : Nat) (c : Context) :
    (s.putContext k c).cfgFault = s.cfgFault := by
  unfold State.putContext; split <;> rfl
@[simp] theorem State.putContext_seqCtr (s : State) (k : Nat) (c : Context) :
    (s.putContext k c).seqCtr = s.seqCtr := by
  unfold State.putContext; split <;> rfl
@[simp] theorem State.putContext_ws (s : State) (k : Nat) (c : Context) :
    (s.putContext k c).ws = s.ws := by
  unfold State.putContext; split <;> rfl
@[simp] theorem State.putContext_pr (s : State) (k : Nat) (c : Context) :
    (s.putContext k c).pr = s.pr := by
  unfold State.putContext; split <;> rfl
@[simp] theorem State.putContext_phase (s : State) (k : Nat) (c : Context) :
    (s.putContext k c).phase = s.phase := by
  unfold State.putContext; split <;> rfl
@[simp] theorem State.putContext_pauseKind (s : State) (k : Nat) (c : Context) :
    (s.putContext k c).pauseKind = s.pauseKind := by
  unfold State.putContext; split <;> rfl
@[simp] theorem State.putContext_timer (s : State) (k : Nat) (c : Context) :
    (s.putContext k c).timer = s.timer := by
  unfold State.putContext; split <;> rfl
@[simp] theorem State.putContext_delivered (s : State) (k : Nat) (c : Context) :
    (s.putContext k c).delivered = s.delivered := by
  unfold State.putContext; split <;> rfl
@[simp] theorem State.putContext_rxc (s : State) (k : Nat) (c : Context) :
    (s.putContext k c).rxc = if c.step = .done then eraseContext k s.rxc else insertContext k c s.rxc := by
  unfold State.putContext; split <;> rfl
@[simp] theorem State.putContext_cur (s : State) (k : Nat) (c : Context) :
    (s.putContext k c).cur = s.cur := by
  unfold State.putContext; split <;> rfl
@[simp] theorem State.putContext_sched (s : State) (k : Nat) (c : Context) :
    (s.putContext k c).sched = s.sched := by
  unfold State.putContext; split <;> rfl
@[simp] theorem State.putContext_out (s : State) (k : Nat) (c : Context) :
    (s.putContext k c).out = s.out := by
  unfold State.putContext; split <;> rfl
@[simp] theorem State.putContext_free (s : State) (k : Nat) (c : Context) :
    (s.putContext k c).free = s.free := by
  unfold State.putContext; split <;> rfl

/-! ### `createContext` -/

@[simp] theorem State.createContext_params (s : State) (m : Bytes) (peer : Addr) :
    (s.createContext m peer).params = s.params := rfl
@[simp] theorem State.createContext_cfgGen (s : State) (m : Bytes) (peer : Addr) :
    (s.createContext m peer).cfgGen = s.cfgGen := rfl
@[simp] theorem State.createContext_cfgFault (s : State) (m : Bytes) (peer : Addr) :
    (s.createContext m peer).cfgFault = s.cfgFault := rfl
@[simp] theorem State.createContext_seqCtr (s : State) (m : Bytes) (peer : Addr) :
    (s.createContext m peer).seqCtr = s.seqCtr := rfl
@[simp] theorem State.createContext_ws (s : State) (m : Bytes) (peer : Addr) :
    (s.createContext m peer).ws = s.ws := rfl
@[simp] theorem State.createContext_pr (s : State) (m : Bytes) (peer : Addr) :
    (s.createContext m peer).pr = s.pr := rfl
@[simp] theorem State.createContext_phase (s : State) (m : Bytes) (peer : Addr) :
    (s.createContext m peer).phase = s.phase := rfl
@[simp] theorem State.createContext_pauseKind (s : State) (m : Bytes) (peer : Addr) :
    (s.createContext m peer).pauseKind = s.pauseKind := rfl
@[simp] theorem State.createContext_timer (s : State) (m : Bytes) (peer : Addr) :
    (s.createContext m peer).timer = s.timer := rfl
@[simp] theorem State.createContext_delivered (s : State) (m : Bytes) (peer : Addr) :
    (s.createContext m peer).delivered = s.delivered := rfl
@[simp] theorem State.createContext_rxc (s : State) (m : Bytes) (peer : Addr) :
    (s.createContext m peer).rxc = insertContext (freshContext 0 s.rxc) (newContext m peer s.free) s.rxc := rfl
@[simp] theorem State.createContext_cur (s : State) (m : Bytes) (peer : Addr) :
    (s.createContext m peer).cur = s.cur := rfl
@[simp] theorem State.createContext_sched (s : State) (m : Bytes) (peer : Addr) :
    (s.createContext m peer).sched = s.sched := rfl
@[simp] theorem State.createContext_out (s : State) (m : Bytes) (peer : Addr) :
    (s.createContext m peer).out = s.out := rfl
@[simp] theorem State.createContext_free (s : State) (m : Bytes) (peer : Addr) :
    (s.createContext m peer).free = s.free + 1 := rfl

/-! ### `storeReply` -/

@[simp] theorem State.storeReply_params (s : State) (q : Byte) (r : SlotResult) :
    (s.storeReply q r).params = s.params := by
  unfold State.storeReply; split <;> rfl
@[simp] theorem State.storeReply_cfgGen (s : State) (q : Byte) (r : SlotResult) :
    (s.storeReply q r).cfgGen = s.cfgGen := by
  unfold State.storeReply; split <;> rfl
@[simp] theorem State.storeReply_cfgFault (s : State) (q : Byte) (r : SlotResult) :
    (s.storeReply q r).cfgFault = s.cfgFault := by
  unfold State.storeReply; split <;> rfl
@[simp] theorem State.storeReply_seqCtr (s : State) (q : Byte) (r : SlotResult) :
    (s.storeReply q r).seqCtr = s.seqCtr := by
  unfold State.storeReply; split <;> rfl
@[simp] theorem State.storeReply_ws (s : State) (q : Byte) (r : SlotResult) :
    (s.storeReply q r).ws = if s.ws.valid && s.ws.seq == q then { s.ws with result := r, signal := true } else s.ws := by
  unfold State.storeReply; split <;> rfl
@[simp] theorem State.storeReply_pr (s : State) (q : Byte) (r : SlotResult) :
    (s.storeReply q r).pr = s.pr := by
  unfold State.storeReply; split <;> rfl
@[simp] theorem State.storeReply_phase (s : State) (q : Byte) (r : SlotResult) :
    (s.storeReply q r).phase = s.phase := by
  unfold State.storeReply; split <;> rfl
@[simp] theorem State.storeReply_pauseKind (s : State) (q : Byte) (r : SlotResult) :
    (s.storeReply q r).pauseKind = s.pauseKind := by
  unfold State.storeReply; split <;> rfl
@[simp] theorem State.storeReply_timer (s : State) (q : Byte) (r : SlotResult) :
    (s.storeReply q r).timer = s.timer := by
  unfold State.storeReply; split <;> rfl
@[simp] theorem State.storeReply_delivered (s : State) (q : Byte) (r : SlotResult) :
    (s.storeReply q r).delivered = s.delivered := by
  unfold State.storeReply; split <;> rfl
@[simp] theorem State.storeReply_rxc (s : State) (q : Byte) (r : SlotResult) :
    (s.storeReply q r).rxc = s.rxc := by
  unfold State.storeReply; split <;> rfl
@[simp] theorem State.storeReply_cur (s : State) (q : Byte) (r : SlotResult) :
    (s.storeReply q r).cur = s.cur := by
  unfold State.storeReply; split <;> rfl
@[simp] theorem State.storeReply_sched (s : State) (q : Byte) (r : SlotResult) :
    (s.storeReply q r).sched = s.sched := by
  unfold State.storeReply; split <;> rfl
@[simp] theorem State.storeReply_out (s : State) (q : Byte) (r : SlotResult) :
    (s.storeReply q r).out = s.out := by
  unfold State.storeReply; split <;> rfl
@[simp] theorem State.storeReply_free (s : State) (q : Byte) (r : SlotResult) :
    (s.storeReply q r).free = s.free := by
  unfold State.storeReply; split <;> rfl

/-! ### `markDelivered` -/

@[simp] theorem State.markDelivered_params (s : State) (q : Byte) :
    (s.markDelivered q).params = s.params := rfl
@[simp] theorem State.markDelivered_cfgGen (s : State) (q : Byte) :
    (s.markDelivered q).cfgGen = s.cfgGen := rfl
@[simp] theorem State.markDelivered_cfgFault (s : State) (q : Byte) :
    (s.markDelivered q).cfgFault = s.cfgFault := rfl
@[simp] theorem State.markDelivered_seqCtr (s : State) (q : Byte) :
    (s.markDelivered q).seqCtr = s.seqCtr := rfl
@[simp] theorem State.markDelivered_ws (s : State) (q : Byte) : (s.markDelivered q).ws = s.ws := rfl
@[simp] theorem State.markDelivered_pr (s : State) (q : Byte) : (s.markDelivered q).pr = s.pr := rfl
@[simp] theorem State.markDelivered_phase (s : State) (q : Byte) : (s.markDelivered q).phase = s.phase := rfl
@[simp] theorem State.markDelivered_pauseKind (s : State) (q : Byte) :
    (s.markDelivered q).pauseKind = s.pauseKind := rfl
@[simp] theorem State.markDelivered_timer (s : State) (q : Byte) : (s.markDelivered q).timer = s.timer := rfl
@[simp] theorem State.markDelivered_delivered (s : State) (q : Byte) :
    (s.markDelivered q).delivered = s.delivered ||| BitVec.twoPow 256 q.toNat := rfl
@[simp] theorem State.markDelivered_rxc (s : State) (q : Byte) : (s.markDelivered q).rxc = s.rxc := rfl
@[simp] theorem State.markDelivered_cur (s : State) (q : Byte) : (s.markDelivered q).cur = s.cur := rfl
@[simp] theorem State.markDelivered_sched (s : State) (q : Byte) : (s.markDelivered q).sched = s.sched := rfl
@[simp] theorem State.markDelivered_out (s : State) (q : Byte) : (s.markDelivered q).out = s.out := rfl
@[simp] theorem State.markDelivered_free (s : State) (q : Byte) : (s.markDelivered q).free = s.free := rfl

/-! ### `popStimulus` -/

@[simp] theorem State.popStimulus_params (s : State) :
    (s.popStimulus).params = s.params := by
  unfold State.popStimulus; split <;> simp_all
@[simp] theorem State.popStimulus_cfgGen (s : State) :
    (s.popStimulus).cfgGen = s.cfgGen := by
  unfold State.popStimulus; split <;> simp_all
@[simp] theorem State.popStimulus_cfgFault (s : State) :
    (s.popStimulus).cfgFault = s.cfgFault := by
  unfold State.popStimulus; split <;> simp_all
@[simp] theorem State.popStimulus_seqCtr (s : State) :
    (s.popStimulus).seqCtr = s.seqCtr := by
  unfold State.popStimulus; split <;> simp_all
@[simp] theorem State.popStimulus_ws (s : State) :
    (s.popStimulus).ws = s.ws := by
  unfold State.popStimulus; split <;> simp_all
@[simp] theorem State.popStimulus_pr (s : State) :
    (s.popStimulus).pr = s.pr := by
  unfold State.popStimulus; split <;> simp_all
@[simp] theorem State.popStimulus_phase (s : State) :
    (s.popStimulus).phase = s.phase := by
  unfold State.popStimulus; split <;> simp_all
@[simp] theorem State.popStimulus_pauseKind (s : State) :
    (s.popStimulus).pauseKind = s.pauseKind := by
  unfold State.popStimulus; split <;> simp_all
@[simp] theorem State.popStimulus_timer (s : State) :
    (s.popStimulus).timer = s.timer := by
  unfold State.popStimulus; split <;> simp_all
@[simp] theorem State.popStimulus_delivered (s : State) :
    (s.popStimulus).delivered = s.delivered := by
  unfold State.popStimulus; split <;> simp_all
@[simp] theorem State.popStimulus_rxc (s : State) :
    (s.popStimulus).rxc = s.rxc := by
  unfold State.popStimulus; split <;> simp_all
@[simp] theorem State.popStimulus_cur (s : State) :
    (s.popStimulus).cur = s.cur := by
  unfold State.popStimulus; split <;> simp_all
@[simp] theorem State.popStimulus_sched (s : State) :
    (s.popStimulus).sched = s.sched.tail := by
  unfold State.popStimulus; split <;> simp_all
@[simp] theorem State.popStimulus_out (s : State) :
    (s.popStimulus).out = s.out := by
  unfold State.popStimulus; split <;> simp_all
@[simp] theorem State.popStimulus_free (s : State) :
    (s.popStimulus).free = if s.sched.isEmpty then s.free + 1 else s.free := by
  unfold State.popStimulus; split <;> simp_all

/-! ### `zReset` and reset (R41, R231) -/

@[simp] theorem State.zReset_params (s : State) (p : Config.Params) :
    (s.zReset p).params = p := rfl
@[simp] theorem State.zReset_cfgGen (s : State) (p : Config.Params) :
    (s.zReset p).cfgGen = { len := p.gen.length, bits := p.gen } := rfl
@[simp] theorem State.zReset_cfgFault (s : State) (p : Config.Params) :
    (s.zReset p).cfgFault = decide (p.gen.length < 1 ∨ 8 < p.gen.length) := rfl
@[simp] theorem State.zReset_seqCtr (s : State) (p : Config.Params) :
    (s.zReset p).seqCtr = 0 := rfl
@[simp] theorem State.zReset_phase (s : State) (p : Config.Params) :
    (s.zReset p).phase = .idle := rfl
@[simp] theorem State.zReset_timer (s : State) (p : Config.Params) :
    (s.zReset p).timer = 0 := rfl
@[simp] theorem State.zReset_delivered (s : State) (p : Config.Params) :
    (s.zReset p).delivered = 0 := rfl
@[simp] theorem State.zReset_rxc (s : State) (p : Config.Params) :
    (s.zReset p).rxc = [] := rfl
@[simp] theorem State.zReset_sched (s : State) (p : Config.Params) :
    (s.zReset p).sched = s.sched := rfl
@[simp] theorem State.zReset_out (s : State) (p : Config.Params) :
    (s.zReset p).out = s.out := rfl
@[simp] theorem State.zReset_free (s : State) (p : Config.Params) :
    (s.zReset p).free = s.free := rfl
@[simp] theorem State.zReset_ws_valid (s : State) (p : Config.Params) : (s.zReset p).ws.valid = false := rfl

end Sys2Proof.Machine
end

