-- ==== Sys2Proof/Laws/Contexts.lean ====
section
/-! SUPPORT. The receive contexts: what the list operations of Machine/Ops.lean do, and that they keep the
indexes rising. -/

namespace Sys2Proof.Machine

open Sys2Proof

/-- Strictly rising indexes, of a list of contexts. -/
abbrev Rising (l : List (Nat × Context)) : Prop := (l.map Prod.fst).Pairwise (· < ·)

@[simp] theorem lookupContext_insertContext_self (k : Nat) (c : Context) (l : List (Nat × Context)) :
    lookupContext k (insertContext k c l) = some c := by
  induction l with
  | nil => simp [insertContext, lookupContext]
  | cons e l ih =>
    obtain ⟨j, d⟩ := e
    simp only [insertContext]
    split_ifs with h1 h2
    · simp [lookupContext]
    · simp [lookupContext]
    · simp [lookupContext, Ne.symm h2, ih]

theorem lookupContext_insertContext_ne {j k : Nat} (h : j ≠ k) (c : Context) (l : List (Nat × Context)) :
    lookupContext j (insertContext k c l) = lookupContext j l := by
  induction l with
  | nil => simp [insertContext, lookupContext, Ne.symm h]
  | cons e l ih =>
    obtain ⟨i, d⟩ := e
    simp only [insertContext]
    split_ifs with h1 h2
    · simp [lookupContext, Ne.symm h]
    · subst h2; simp [lookupContext, Ne.symm h]
    · simp [lookupContext, ih]

theorem lookupContext_eraseContext_ne {j k : Nat} (h : j ≠ k) (l : List (Nat × Context)) :
    lookupContext j (eraseContext k l) = lookupContext j l := by
  induction l with
  | nil => rfl
  | cons e l ih =>
    obtain ⟨i, d⟩ := e
    simp only [eraseContext]
    split_ifs with h1
    · subst h1; simp [lookupContext, Ne.symm h]
    · simp [lookupContext, ih]

theorem lookupContext_eq_none {k : Nat} {l : List (Nat × Context)} :
    lookupContext k l = none ↔ k ∉ l.map Prod.fst := by
  induction l with
  | nil => simp [lookupContext]
  | cons e l ih =>
    obtain ⟨j, d⟩ := e
    by_cases h : j = k
    · simp [lookupContext, h]
    · simp only [lookupContext, h, if_false, ih, List.map_cons, List.mem_cons]
      simp [Ne.symm h]

theorem lookupContext_mem {k : Nat} {c : Context} {l : List (Nat × Context)}
    (h : lookupContext k l = some c) : (k, c) ∈ l := by
  induction l with
  | nil => simp [lookupContext] at h
  | cons e l ih =>
    obtain ⟨j, d⟩ := e
    simp only [lookupContext] at h
    split_ifs at h with h1
    · simp_all
    · exact List.mem_cons_of_mem _ (ih h)

theorem lookupContext_eraseContext_self {k : Nat} {l : List (Nat × Context)} (h : Rising l) :
    lookupContext k (eraseContext k l) = none := by
  induction l with
  | nil => rfl
  | cons e l ih =>
    obtain ⟨j, d⟩ := e
    simp only [Rising, List.map_cons, List.pairwise_cons] at h
    simp only [eraseContext]
    split_ifs with h1
    · rw [lookupContext_eq_none]
      intro hk
      have := h.1 k hk
      omega
    · simp [lookupContext, h1, ih h.2]

theorem mem_keys_insertContext {i k : Nat} {c : Context} {l : List (Nat × Context)}
    (h : i ∈ (insertContext k c l).map Prod.fst) : i = k ∨ i ∈ l.map Prod.fst := by
  induction l with
  | nil => simpa [insertContext] using h
  | cons e l ih =>
    obtain ⟨j, d⟩ := e
    simp only [insertContext] at h
    split_ifs at h with h1 h2
    · simpa using h
    · subst h2; simp at h; simp; tauto
    · simp only [List.map_cons, List.mem_cons] at h ⊢
      rcases h with h | h
      · tauto
      · rcases ih h with h | h <;> tauto

theorem mem_keys_eraseContext {i k : Nat} {l : List (Nat × Context)}
    (h : i ∈ (eraseContext k l).map Prod.fst) : i ∈ l.map Prod.fst := by
  induction l with
  | nil => exact h
  | cons e l ih =>
    obtain ⟨j, d⟩ := e
    simp only [eraseContext] at h
    split_ifs at h with h1
    · exact List.mem_cons_of_mem _ h
    · simp only [List.map_cons, List.mem_cons] at h ⊢
      exact h.imp_right ih

theorem rising_insertContext (k : Nat) (c : Context) {l : List (Nat × Context)} (h : Rising l) :
    Rising (insertContext k c l) := by
  induction l with
  | nil => simp [insertContext, Rising]
  | cons e l ih =>
    obtain ⟨j, d⟩ := e
    have h' := h
    simp only [Rising, List.map_cons, List.pairwise_cons] at h'
    simp only [insertContext]
    split_ifs with h1 h2
    · simp only [Rising, List.map_cons, List.pairwise_cons, List.mem_cons]
      refine ⟨?_, h'⟩
      rintro i (rfl | hi)
      · exact h1
      · exact h1.trans (h'.1 i hi)
    · subst h2; simpa [Rising] using h'
    · simp only [Rising, List.map_cons, List.pairwise_cons]
      refine ⟨fun i hi => ?_, ih h'.2⟩
      rcases mem_keys_insertContext hi with rfl | hi
      · omega
      · exact h'.1 i hi

theorem rising_eraseContext (k : Nat) {l : List (Nat × Context)} (h : Rising l) :
    Rising (eraseContext k l) := by
  induction l with
  | nil => exact h
  | cons e l ih =>
    obtain ⟨j, d⟩ := e
    simp only [Rising, List.map_cons, List.pairwise_cons] at h
    simp only [eraseContext]
    split_ifs with h1
    · exact h.2
    · simp only [Rising, List.map_cons, List.pairwise_cons]
      exact ⟨fun i hi => h.1 i (mem_keys_eraseContext hi), ih h.2⟩

/-- The fresh index is one no context has. -/
theorem freshContext_notMem {n : Nat} {l : List (Nat × Context)} (h : Rising l)
    (hn : ∀ i ∈ l.map Prod.fst, n ≤ i) : freshContext n l ∉ l.map Prod.fst := by
  induction l generalizing n with
  | nil => simp
  | cons e l ih =>
    obtain ⟨j, d⟩ := e
    simp only [Rising, List.map_cons, List.pairwise_cons] at h
    simp only [freshContext]
    split_ifs with h1
    · have hl : ∀ i ∈ l.map Prod.fst, n + 1 ≤ i := fun i hi => by have := h.1 i hi; omega
      have hge : ∀ (m : Nat) (l : List (Nat × Context)), m ≤ freshContext m l := by
        intro m l
        induction l generalizing m with
        | nil => simp [freshContext]
        | cons e l ih =>
          simp only [freshContext]
          split_ifs
          · exact (Nat.le_succ m).trans (ih (m + 1))
          · exact le_refl m
      have := hge (n + 1) l
      simp only [List.map_cons, List.mem_cons, not_or]
      exact ⟨by omega, ih h.2 hl⟩
    · have hj := hn j (by simp)
      simp only [List.map_cons, List.mem_cons, not_or]
      refine ⟨Ne.symm h1, fun hi => ?_⟩
      have := h.1 n hi
      omega

theorem lookupContext_fresh {l : List (Nat × Context)} (h : Rising l) :
    lookupContext (freshContext 0 l) l = none :=
  lookupContext_eq_none.2 (freshContext_notMem h fun i _ => Nat.zero_le i)

theorem length_insertContext_of_some {k : Nat} {c d : Context} {l : List (Nat × Context)} (h : Rising l)
    (hd : lookupContext k l = some d) : (insertContext k c l).length = l.length := by
  induction l with
  | nil => simp [lookupContext] at hd
  | cons e l ih =>
    obtain ⟨j, x⟩ := e
    simp only [Rising, List.map_cons, List.pairwise_cons] at h
    simp only [lookupContext] at hd
    simp only [insertContext]
    split_ifs with h1 h2
    · have hjk : j ≠ k := by omega
      simp only [hjk, if_false] at hd
      have := h.1 k (List.mem_map_of_mem (f := Prod.fst) (lookupContext_mem hd))
      omega
    · simp
    · simp only [Ne.symm h2, if_false] at hd
      simp [ih h.2 hd]

theorem length_insertContext_le (k : Nat) (c : Context) (l : List (Nat × Context)) :
    (insertContext k c l).length ≤ l.length + 1 := by
  induction l with
  | nil => simp [insertContext]
  | cons e l ih =>
    simp only [insertContext]
    split_ifs
    · simp
    · simp
    · simpa using ih

theorem length_eraseContext_le (k : Nat) (l : List (Nat × Context)) :
    (eraseContext k l).length ≤ l.length := by
  induction l with
  | nil => simp [eraseContext]
  | cons e l ih =>
    simp only [eraseContext]
    split_ifs
    · simp
    · simpa using ih

/-! ### The same of the state -/

theorem State.context_def (s : State) (k : Nat) : s.context k = lookupContext k s.rxc := rfl

theorem State.context_putContext_self (s : State) (k : Nat) (c : Context) (h : c.step ≠ .done) :
    (s.putContext k c).context k = some c := by
  simp [State.context_def, h]

theorem State.context_putContext_ne (s : State) {j k : Nat} (c : Context) (h : j ≠ k) :
    (s.putContext k c).context j = s.context j := by
  simp only [State.context_def, State.putContext_rxc]
  split_ifs
  · exact lookupContext_eraseContext_ne h _
  · exact lookupContext_insertContext_ne h _ _

theorem State.context_endContext_self (s : State) (k : Nat) (h : s.ContextsRising) :
    (s.endContext k).context k = none :=
  lookupContext_eraseContext_self h

theorem State.context_endContext_ne (s : State) {j k : Nat} (h : j ≠ k) :
    (s.endContext k).context j = s.context j :=
  lookupContext_eraseContext_ne h _

theorem State.rising_putContext {s : State} (k : Nat) (c : Context) (h : s.ContextsRising) :
    (s.putContext k c).ContextsRising := by
  simp only [State.ContextsRising, State.putContext_rxc]
  split_ifs
  · exact rising_eraseContext k h
  · exact rising_insertContext k c h

theorem State.rising_endContext {s : State} (k : Nat) (h : s.ContextsRising) :
    (s.endContext k).ContextsRising :=
  rising_eraseContext k h

theorem State.rising_createContext {s : State} (m : Bytes) (peer : Addr) (h : s.ContextsRising) :
    (s.createContext m peer).ContextsRising :=
  rising_insertContext _ _ h

end Sys2Proof.Machine
end

