-- ==== Sys2Proof/Laws/Crce.lean ====
section
/-! SUPPORT. The small lemmas of the CRC engine: lengths, and how `val`, `regRem`, `xorOnto` and packing take a
sequence apart. -/

namespace Sys2Proof.Machine

open Sys2Proof

@[simp] theorem bitsN_length (n v : Nat) : (bitsN n v).length = n := by simp [bitsN]

@[simp] theorem zeros_length (k : Nat) : (zeros k).length = k := by simp [zeros]

@[simp] theorem byteBits_length (b : Byte) : (byteBits b).length = 8 := by simp [byteBits]

@[simp] theorem bytesToBits_nil : bytesToBits [] = [] := rfl

@[simp] theorem bytesToBits_cons (b : Byte) (bs : Bytes) : bytesToBits (b :: bs) = byteBits b ++ bytesToBits bs := rfl

@[simp] theorem bytesToBits_append (a b : Bytes) : bytesToBits (a ++ b) = bytesToBits a ++ bytesToBits b := by
  simp [bytesToBits]

@[simp] theorem bytesToBits_length (bs : Bytes) : (bytesToBits bs).length = 8 * bs.length := by
  induction bs with
  | nil => rfl
  | cons b bs ih => simp [ih]; omega

@[simp] theorem val_nil : val [] = 0 := rfl

/-- `val(b ‖ [x]) = 2*val(b) + x` (R11). -/
@[simp] theorem val_append_singleton (b : Bits) (x : Bool) : val (b ++ [x]) = 2 * val b + x.toNat := by
  simp [val]

theorem val_lt (b : Bits) : val b < 2 ^ b.length := by
  induction b using List.reverseRecOn with
  | nil => simp
  | append_singleton b x ih =>
    have := x.toNat_le
    simp only [val_append_singleton, List.length_append, List.length_singleton, Nat.pow_succ]
    omega

@[simp] theorem regRem_nil (gen : Bits) : regRem gen [] = 0 := rfl

/-- Register mode takes the bits in order (R103). -/
@[simp] theorem regRem_append_singleton (gen m : Bits) (b : Bool) :
    regRem gen (m ++ [b]) = regStep gen.length (val gen) (regRem gen m) b := by
  simp [regRem]

@[simp] theorem xorOnto_length (g w : Bits) : (xorOnto g w).length = w.length := by
  induction g generalizing w with
  | nil => simp [xorOnto]
  | cons x g ih => cases w <;> simp [xorOnto, ih]

@[simp] theorem xorWindow_length (gen w : Bits) (i : Nat) : (xorWindow gen w i).length = w.length := by
  simp [xorWindow]
  omega

@[simp] theorem divStep_length (gen w : Bits) (i : Nat) : (divStep gen w i).length = w.length := by
  unfold divStep
  split_ifs <;> simp

/-- The verdict of `CRCVFY` by the spec's words (R111): the remainder is `0^(n-1)`. -/
theorem allZero_iff {rem : Bits} : allZero rem = true ↔ rem = zeros rem.length := by
  simp [allZero, zeros, List.eq_replicate_iff]

end Sys2Proof.Machine
end

