-- ==== Sys2Proof/Laws/Ops.lean ====
section
/-! SUPPORT. The operations of Machine/Ops.lean and of Machine/Run.lean, each said once: taking a stimulus off,
marking a sequence number delivered, storing a reply, and the capacity checks. -/

namespace Sys2Proof.Machine

open Sys2Proof

/-- Taking a stimulus off touches the schedule and the draws alone. -/
theorem State.popStimulus_eq (s : State) :
    s.popStimulus = { s with sched := s.popStimulus.sched, free := s.popStimulus.free } := by
  unfold State.popStimulus
  split <;> rfl

@[simp] theorem State.context_popStimulus (s : State) (k : Nat) : s.popStimulus.context k = s.context k := by
  simp [State.context_def]

@[simp] theorem State.context_emit (s : State) (o : PortOut) (k : Nat) : (s.emit o).context k = s.context k := rfl

@[simp] theorem State.isDelivered_emit (s : State) (o : PortOut) (b : Byte) :
    (s.emit o).isDelivered b = s.isDelivered b := rfl

@[simp] theorem State.isDelivered_putContext (s : State) (k : Nat) (c : Context) (b : Byte) :
    (s.putContext k c).isDelivered b = s.isDelivered b := by
  simp [State.isDelivered]

/-- Marking adds one sequence number to the delivered-set and no other (R36, R174). -/
@[simp] theorem State.isDelivered_markDelivered (s : State) (q b : Byte) :
    (s.markDelivered q).isDelivered b = (s.isDelivered b || b == q) := by
  have hb := b.isLt
  simp only [State.isDelivered, State.markDelivered, BitVec.getLsbD_or, BitVec.getLsbD_twoPow]
  by_cases h : b = q
  · subst h
    simp
    omega
  · have : q.toNat ≠ b.toNat := fun h' => h (BitVec.eq_of_toNat_eq h'.symm)
    simp [h, this]

/-- A reply is stored when its slot is registered, and dropped otherwise (R177). -/
theorem State.storeReply_ws_eq (s : State) (seq : Byte) (r : SlotResult) :
    (s.storeReply seq r).ws =
      if s.ws.valid = true ∧ s.ws.seq = seq then { s.ws with result := r, signal := true } else s.ws := by
  unfold State.storeReply
  by_cases h : s.ws.valid = true ∧ s.ws.seq = seq
  · simp [h]
  · rw [if_neg h, if_neg (by simpa using h)]

/-- `within` by the spec's words: unbounded, or at most the capacity (R50). -/
theorem within_iff {limit : Option Nat} {n : Nat} : within limit n = true ↔ ∀ m, limit = some m → n ≤ m := by
  cases limit <;> simp [within]

/-- With unbounded capacities every buffer fits. -/
theorem buffersFit_of_none {p : Config.Params} (hb : p.bitsMax = none) (hB : p.bytesMax = none) (n m : Nat) :
    buffersFit p n m = true := by
  simp [buffersFit, within, hb, hB]

/-- What fits, fits with less in it. -/
theorem buffersFit_mono {p : Config.Params} {n m n' m' : Nat} (h : buffersFit p n m = true) (hn : n' ≤ n)
    (hm : m' ≤ m) : buffersFit p n' m' = true := by
  simp only [buffersFit, Bool.and_eq_true, within_iff] at h ⊢
  exact ⟨fun k hk => hn.trans (h.1 k hk), fun k hk => hm.trans (h.2 k hk)⟩

/-- An operation without other buffers is never stopped for them. -/
theorem buffersFit_zero (p : Config.Params) : buffersFit p 0 0 = true := by
  simp [buffersFit, within_iff]

/-- `DivGenOK` by the spec's words (R101). -/
theorem divGenOK_iff {p : Config.Params} {gen : Bits} :
    divGenOK p gen = true ↔ gen.getD 0 false = true ∧ ∀ m, p.divGenMax = some m → gen.length ≤ m := by
  simp only [divGenOK, Bool.and_eq_true, within_iff]
  cases gen <;> simp

/-- `FrameGenOK` by the spec's words (R101). -/
theorem frameGenOK_iff {gen : Bits} : frameGenOK gen = true ↔ 1 ≤ gen.length ∧ gen.length ≤ 8 := by
  simp only [frameGenOK, Bool.and_eq_true, decide_eq_true_eq]
  rfl

end Sys2Proof.Machine
end

