-- ==== Sys2Proof/Laws/PerInstr.lean ====
section
/-! SUPPORT. The family `Selector`, one lemma per instruction: the encoding of an instruction carries the selector
that spec/opcode_table.json gives its row. -/

namespace Sys2Proof.Laws.Selector

open Sys2Proof

/-- A row's fixed bits: where they lie (`hi` down to `lo`) and their value. -/
structure Row where
  hi : Nat
  lo : Nat
  value : Nat
deriving DecidableEq, Repr

/-- The fixed bits of every row of spec/opcode_table.json (R84, R80). -/
def row : Instr → Row
  | .crcreg _ _ => ⟨7, 0, 0⟩
  | .crcdiv _ _ => ⟨7, 0, 1⟩
  | .crcenc _ _ => ⟨7, 0, 2⟩
  | .crcvfy _ _ => ⟨7, 0, 3⟩
  | .divtrc _ _ => ⟨7, 0, 4⟩
  | .bytes2b _ => ⟨7, 0, 5⟩
  | .b2bytes _ => ⟨7, 0, 6⟩
  | .classify _ => ⟨7, 0, 7⟩
  | .txt2pay _ => ⟨7, 0, 8⟩
  | .blddata _ _ _ => ⟨7, 0, 9⟩
  | .bldack _ _ _ => ⟨7, 0, 10⟩
  | .parse _ _ => ⟨7, 0, 11⟩
  | .send _ _ => ⟨7, 0, 12⟩
  | .rxData _ _ _ _ _ => ⟨31, 24, 0⟩
  | .rxAck _ _ _ _ _ => ⟨31, 24, 1⟩
  | .rxNack _ _ _ _ _ => ⟨31, 24, 2⟩

/-- The bits the table numbers: `CMD.op`, or the header `H` of a frame (R80). -/
def tableBits : Transaction → Nat
  | .cmd c => c.op.toNat
  | .message m => memRead m 0 5

/-- The encoding of `i` carries the fixed bits of its row. -/
def Statement (i : Instr) : Prop :=
  tableBits (encode i) / 2 ^ (row i).lo % 2 ^ ((row i).hi - (row i).lo + 1) = (row i).value

/-- Bits 31 down to 24 of the header are the type byte. -/
theorem header_type (v t q : Byte) (n : BitVec 16) (p : Bytes) (c : Byte) :
    memRead (frameBytes v t q n p c) 0 5 / 2 ^ 24 % 2 ^ 8 = t.toNat := by
  have ht := t.isLt
  have hq := q.isLt
  simp only [frameBytes, memBytes, memRead, List.cons_append, List.nil_append,
    List.drop_zero, List.take_succ_cons, List.take_zero, List.foldl_cons, List.foldl_nil]
  generalize hh : (BitVec.ofNat 8 (n.toNat / 256 ^ 1)) = h
  generalize hl : (BitVec.ofNat 8 (n.toNat / 256 ^ 0)) = l
  have h1 := h.isLt
  have l1 := l.isLt
  omega

theorem crcreg (gen : Bits) (data : Bytes) : Statement (.crcreg gen data) := by
  simp [Statement, tableBits, encode, blankCmd, row]
theorem crcdiv (gen msg : Bits) : Statement (.crcdiv gen msg) := by
  simp [Statement, tableBits, encode, blankCmd, row]
theorem crcenc (gen msg : Bits) : Statement (.crcenc gen msg) := by
  simp [Statement, tableBits, encode, blankCmd, row]
theorem crcvfy (gen cw : Bits) : Statement (.crcvfy gen cw) := by
  simp [Statement, tableBits, encode, blankCmd, row]
theorem divtrc (gen msg : Bits) : Statement (.divtrc gen msg) := by
  simp [Statement, tableBits, encode, blankCmd, row]
theorem bytes2b (bytes : Bytes) : Statement (.bytes2b bytes) := by
  simp [Statement, tableBits, encode, blankCmd, row]
theorem b2bytes (bits : Bits) : Statement (.b2bytes bits) := by
  simp [Statement, tableBits, encode, blankCmd, row]
theorem classify (text : Bytes) : Statement (.classify text) := by
  simp [Statement, tableBits, encode, blankCmd, row]
theorem txt2pay (text : Bytes) : Statement (.txt2pay text) := by
  simp [Statement, tableBits, encode, blankCmd, row]
theorem blddata (payload : Bytes) (gen : Bits) (seq : BitVec 32) : Statement (.blddata payload gen seq) := by
  simp [Statement, tableBits, encode, blankCmd, row]
theorem bldack (seq : BitVec 32) (positive : Bool) (gen : Bits) : Statement (.bldack seq positive gen) := by
  simp [Statement, tableBits, encode, blankCmd, row]
theorem parse (frame : Bytes) (gen : Bits) : Statement (.parse frame gen) := by
  simp [Statement, tableBits, encode, blankCmd, row]
theorem send (bytes : Bytes) (isText : Bool) : Statement (.send bytes isText) := by
  simp [Statement, tableBits, encode, blankCmd, row]

theorem rxData (version seq : Byte) (length : BitVec 16) (payload : Bytes) (checksum : Byte) :
    Statement (.rxData version seq length payload checksum) :=
  header_type _ _ _ _ _ _

theorem rxAck (version seq : Byte) (length : BitVec 16) (payload : Bytes) (checksum : Byte) :
    Statement (.rxAck version seq length payload checksum) :=
  header_type _ _ _ _ _ _

theorem rxNack (version seq : Byte) (length : BitVec 16) (payload : Bytes) (checksum : Byte) :
    Statement (.rxNack version seq length payload checksum) :=
  header_type _ _ _ _ _ _

end Sys2Proof.Laws.Selector
end

