-- ==== Sys2Proof/Laws/Step.lean ====
section
/-! SUPPORT. What each shared operation can do, said once: the answers of a pure operation, the steps of a wire
operation, and all the results one step of the machine can have. -/

namespace Sys2Proof.Machine

open Sys2Proof

/-- A pure operation that completes has issued one `RSP` and changed nothing else. -/
theorem pureOp_next {s t : State} {n m : Nat} {w : Work} {r : Except Err (Rsp → Rsp)}
    (h : pureOp s n m w r = .next t) : ∃ x : Rsp, t = s.afterRsp x := by
  cases r <;> simp only [pureOp] at h <;> split_ifs at h <;> cases h <;> exact ⟨_, rfl⟩

theorem pureOp_ne_fault {s : State} {n m : Nat} {w : Work} {r : Except Err (Rsp → Rsp)} (f : Fault) :
    pureOp s n m w r ≠ .fault f := by
  cases r <;> simp only [pureOp] <;> split_ifs <;> simp

/-- A pure operation is refused for its operands, or, having raised no error, for its other buffers. -/
theorem pureOp_refused {s : State} {n m : Nat} {w : Work} {r : Except Err (Rsp → Rsp)} {e : Refusal}
    (h : pureOp s n m w r = .refused e) :
    e = .overCapacity ∧ (buffersFit s.params n m = false ∨
      (∃ fill, r = .ok fill) ∧ buffersFit s.params w.nbits w.nbytes = false) := by
  cases r <;> simp only [pureOp] at h <;> split_ifs at h <;> cases h <;> simp_all

/-- A pure operation whose operands fit and that raises no error answers its results, if its buffers fit. -/
theorem pureOp_ok {s : State} {n m : Nat} {w : Work} (fill : Rsp → Rsp) (h : buffersFit s.params n m = true)
    (hw : buffersFit s.params w.nbits w.nbytes = true) : pureOp s n m w (.ok fill) = .next (s.answer fill) := by
  simp [pureOp, h, hw]

/-- A pure operation whose operands fit and that raises an error answers it, whatever its other buffers. -/
theorem pureOp_error {s : State} {n m : Nat} (w : Work) (e : Err) (h : buffersFit s.params n m = true) :
    pureOp s n m w (.error e) = .next (s.raise e) := by
  simp [pureOp, h]

/-- A wire operation answers a next state exactly when its context exists: `X.PARSE`, or the step the step
register names. -/
theorem wireOp_next {f : Fields} {next : Frame → CtxStep} {s t : State} :
    wireOp f next s = .next t ↔ ∃ c, s.context s.cur = some c ∧
      t = if c.step = .parse then xParse s.cur c f next s else xStep s.cur c s := by
  unfold wireOp
  cases hc : s.context s.cur with
  | none => simp
  | some c => simp [eq_comm]

/-- How `X.PARSE` dispatches a frame that selects a wire operation (R172). -/
def wireNext (f : Fields) : Frame → CtxStep :=
  if f.type = Config.typeData then fun fr => if fr.matchFlag then .testInsert else .nack
  else fun _ => .ackNack

/-- The operation of an inbound message, run in the context that holds it. -/
theorem exec_selectWire {f : Fields} {i : Instr} (h : selectWire f = .ok i) (s : State) :
    exec i s = wireOp f (wireNext f) s := by
  unfold selectWire at h
  split_ifs at h with h0 h1 h2 <;> cases h
  · rw [show wireNext f = fun fr => if fr.matchFlag then CtxStep.testInsert else .nack by simp [wireNext, h0]]
    cases f; simp only at h0; subst h0; rfl
  · rw [show wireNext f = fun _ => CtxStep.ackNack by simp [wireNext, h0]]
    cases f; simp only at h1; subst h1; rfl
  · rw [show wireNext f = fun _ => CtxStep.ackNack by simp [wireNext, h0]]
    cases f; simp only at h2; subst h2; rfl

/-- The selector of `SEND` (R84). -/
theorem decodeCmd_send {c : Cmd} (h : c.op = 0x0C) : decodeCmd c = .ok (.send c.bytes c.flag) := by
  unfold decodeCmd
  rw [h]
  rfl

/-- What a command does when it answers: one `RSP` and nothing else, or the step `S.START`. -/
theorem takeCommand_next {c : Cmd} {s t : State} (h : takeCommand c s = .next t) :
    (c.op.toNat ≠ 0x0C ∧ ∃ r : Rsp, t = s.afterRsp r) ∨
      (c.op = 0x0C ∧ t = sStart c.bytes c.flag s) := by
  unfold takeCommand at h
  by_cases hc : c.op = 0x0C
  · right
    rw [decodeCmd_send hc] at h
    simp only [exec, execSend] at h
    split_ifs at h
    cases h
    exact ⟨hc, rfl⟩
  · left
    have hop : c.op.toNat ≠ 0x0C := fun h' => hc (BitVec.eq_of_toNat_eq h')
    refine ⟨hop, ?_⟩
    split at h
    · next i hi =>
      unfold decodeCmd at hi
      split at hi <;> cases hi <;>
        first
        | exact absurd ‹_› hop
        | (simp only [exec, execCrcreg, execCrcdiv, execCrcenc, execCrcvfy, execDivtrc, execBytes2b,
            execB2bytes, execClassify, execTxt2pay, execBlddata, execBldack, execParse] at h
           first
           | exact pureOp_next h
           | (split_ifs at h
              · exact pureOp_next h
              · cases h; exact ⟨_, rfl⟩))
    · cases h; exact ⟨_, rfl⟩

/-- All the results a step can have, by the stimulus it takes. -/
inductive StepResult (s : State) : Config.Stimulus → State → Prop
  | answered (c : Cmd) (r : Rsp) (h : c.op.toNat ≠ 0x0C) : StepResult s (.cmd c) (s.afterRsp r)
  | sendStarted (c : Cmd) (h : c.op = 0x0C) : StepResult s (.cmd c) (sStart c.bytes c.flag s)
  | accepted (m : Bytes) (peer : Addr) : StepResult s (.rx m peer) (xAccept m peer s)
  | unawaited (ok : Bool) : StepResult s (.txs none ok) s
  | senderAnswered (ok : Bool) : StepResult s (.txs (some .sender) ok) (senderTxs ok s)
  | contextAnswered (k : Nat) (ok : Bool) : StepResult s (.txs (some (.context k)) ok) (contextTxs k ok s)
  | ticked : StepResult s .tick (tTick s)
  | wasReset (p : Config.Params) : StepResult s (.rst p) (s.zReset p)
  | senderRan : StepResult s (.run .sender) (senderStep s)
  | noContext (k : Nat) (h : s.context k = none) : StepResult s (.run (.context k)) s
  | rejected (k : Nat) (c : Context) (e : WireReject) (h : s.context k = some c) (hp : c.step = .parse)
      (hd : decodeMessage c.bytes = .error e) :
      StepResult s (.run (.context k)) (xReject k e { s with cur := k })
  | parsed (k : Nat) (c : Context) (f : Fields) (i : Instr) (h : s.context k = some c)
      (hp : c.step = .parse) (hf : parseFields c.bytes = .ok f) (hi : selectWire f = .ok i) :
      StepResult s (.run (.context k)) (xParse k c f (wireNext f) { s with cur := k })
  | contextRan (k : Nat) (c : Context) (h : s.context k = some c) (hp : c.step ≠ .parse) :
      StepResult s (.run (.context k)) (xStep k c { s with cur := k })

theorem contextStep_result {k : Nat} {s t : State} (h : contextStep k s = .next t) :
    StepResult s (.run (.context k)) t := by
  unfold contextStep at h
  split at h
  · next hk => cases h; exact .noContext k hk
  · next c hk =>
    split_ifs at h with hp
    · split at h
      · next i hi =>
        unfold decodeMessage at hi
        split at hi
        · cases hi
        · next f hf =>
          rw [exec_selectWire hi, wireOp_next] at h
          obtain ⟨d, hd, rfl⟩ := h
          have hd' : s.context k = some d := hd
          rw [hk] at hd'
          cases hd'
          simp only [hp, if_true]
          exact .parsed k c f i hk hp hf hi
      · next e he => cases h; exact .rejected k c e hk hp he
    · cases h; exact .contextRan k c hk hp

theorem takeStimulus_result {x : Config.Stimulus} {s t : State} (h : takeStimulus x s = .next t) :
    StepResult s x t := by
  unfold takeStimulus at h
  split at h
  · next c =>
    rcases takeCommand_next h with ⟨hop, r, rfl⟩ | ⟨hop, rfl⟩
    · exact .answered c r hop
    · exact .sendStarted c hop
  · unfold takeMessage at h
    split_ifs at h
    cases h; exact .accepted _ _
  all_goals first
    | exact contextStep_result h
    | (cases h; constructor)

/-- Every next state of `step` is one of the results of `StepResult`. -/
theorem step_result {s t : State} (h : step s = .next t) : StepResult s.popStimulus s.nextStimulus t :=
  takeStimulus_result h

end Sys2Proof.Machine
end

