-- ==== Sys2Proof/Tests/Slice0.lean ====
section
/-! SUPPORT. Tests of the model, their expected values from spec/95_test_vectors.md or computed by hand from the
rules, and for every statement with hypotheses a witness that meets them. -/

namespace Sys2Proof.Tests

open Sys2Proof Sys2Proof.Machine

/-! ### Helpers -/

/-- Whether an outcome is a next state of which `p` holds. -/
def nextAnd (o : Host.Outcome State Fault Refusal) (p : State → Bool) : Bool :=
  match o with
  | .next t => p t
  | .fault _ => false
  | .refused _ => false

/-- Whether an outcome is a next state whose one transaction is an `RSP` of which `p` holds. -/
def rspAnd (o : Host.Outcome State Fault Refusal) (p : Rsp → Bool) : Bool :=
  nextAnd o fun t =>
    match t.out with
    | [.rsp r] => p r
    | _ => false

/-- The generator `"1011"` of the spec's examples. -/
def g1011 : Bits := [true, false, true, true]

/-- The bits of a number, for short literals. -/
abbrev b (n v : Nat) : Bits := bitsN n v

/-- The state after reset in which `x` comes next. -/
def fed (x : Config.Stimulus) : State := { State.reset with sched := [x] }

/-- A command with every operand filled in, all different. -/
def full (op : Byte) : Cmd :=
  { op := op, gen := [true], bits := [false, true], bytes := [0x41], seq := 0x01020304, flag := true }

/-- A context that holds the 6-byte frame of type `ty` and sequence number 7 with the checksum 2. -/
def ctx (st : CtxStep) (ty : Byte) : Context :=
  { bytes := [0x01, ty, 0x07, 0x00, 0x00, 0x02]
    peer := 9
    step := st
    frame :=
      { fields := { version := 1, type := ty, seq := 7, length := 0, payload := [], checksum := 2 }
        matchFlag := ty == 1 }
    isNew := st == .deliver }

/-- The state after reset with that context under index 3. -/
def holding (st : CtxStep) (ty : Byte) : State := { State.reset with rxc := [(3, ctx st ty)], cur := 3 }

/-- A `SEND` with sequence number 7 waiting for its reply (95_test_vectors.md 2.7). -/
def awaiting : State :=
  { State.reset with
    seqCtr := 8
    ws := { valid := true, seq := 7, result := .pending, signal := false }
    pr := { seq := 7, frame := dataFrame g1011 [0x41] 7, retriesUsed := 1, txPending := false, outcome := .none }
    phase := .awaitingAck
    timer := 20 }

/-! ### Well-formedness: each check refuses an ill-formed term -/

theorem test_wf_rxData : (Instr.rxData 1 7 2 [0x48] 7).wellFormed = false := by decide
theorem test_wf_rxAck : (Instr.rxAck 1 7 1 [] 2).wellFormed = false := by decide
theorem test_wf_rxNack : (Instr.rxNack 1 7 0 [0x48] 1).wellFormed = false := by decide
theorem test_wf_good : (Instr.rxData 1 7 2 [0x48, 0x69] 7).wellFormed = true := by decide

/-! ### Decoding: a word of every constructor, written out from R84 and R73 -/

theorem test_decode_crcreg : decode (.cmd (full 0x00)) = .ok (.crcreg [true] [0x41]) := by decide
theorem test_decode_crcdiv : decode (.cmd (full 0x01)) = .ok (.crcdiv [true] [false, true]) := by decide
theorem test_decode_crcenc : decode (.cmd (full 0x02)) = .ok (.crcenc [true] [false, true]) := by decide
theorem test_decode_crcvfy : decode (.cmd (full 0x03)) = .ok (.crcvfy [true] [false, true]) := by decide
theorem test_decode_divtrc : decode (.cmd (full 0x04)) = .ok (.divtrc [true] [false, true]) := by decide
theorem test_decode_bytes2b : decode (.cmd (full 0x05)) = .ok (.bytes2b [0x41]) := by decide
theorem test_decode_b2bytes : decode (.cmd (full 0x06)) = .ok (.b2bytes [false, true]) := by decide
theorem test_decode_classify : decode (.cmd (full 0x07)) = .ok (.classify [0x41]) := by decide
theorem test_decode_txt2pay : decode (.cmd (full 0x08)) = .ok (.txt2pay [0x41]) := by decide
theorem test_decode_blddata : decode (.cmd (full 0x09)) = .ok (.blddata [0x41] [true] 0x01020304) := by decide
theorem test_decode_bldack : decode (.cmd (full 0x0A)) = .ok (.bldack 0x01020304 true [true]) := by decide
theorem test_decode_parse : decode (.cmd (full 0x0B)) = .ok (.parse [0x41] [true]) := by decide
theorem test_decode_send : decode (.cmd (full 0x0C)) = .ok (.send [0x41] true) := by decide
theorem test_decode_reserved : decode (.cmd (full 0x0D)) = .error (.badOp 0x0D) := by decide

/-- The DATA frame of program P2 line 1. -/
theorem test_decode_rxData :
    decode (.message [0x01, 0x00, 0x07, 0x00, 0x02, 0x48, 0x69, 0x07]) =
      .ok (.rxData 0x01 0x07 0x0002 [0x48, 0x69] 0x07) := by decide
/-- The ACK of program P2 line 6. -/
theorem test_decode_rxAck :
    decode (.message [0x01, 0x01, 0x07, 0x00, 0x00, 0x02]) = .ok (.rxAck 0x01 0x07 0x0000 [] 0x02) := by decide
/-- The NACK of program P2 line 7. -/
theorem test_decode_rxNack :
    decode (.message [0x01, 0x02, 0x07, 0x00, 0x00, 0x01]) = .ok (.rxNack 0x01 0x07 0x0000 [] 0x01) := by decide
/-- `rx 01 03 00 00 00 00` (95_test_vectors.md 2.7). -/
theorem test_decode_reservedType :
    decode (.message [0x01, 0x03, 0x00, 0x00, 0x00, 0x00]) = .error (.wire (.reservedType 3)) := by decide
/-- `rx 01 00` and the big-endian length `01 00` (95_test_vectors.md 2.6, 2.7). -/
theorem test_decode_format :
    decode (.message [0x01, 0x00]) = .error (.wire (.format .tooShort)) ∧
    decode (.message [0x01, 0x00, 0x00, 0x01, 0x00, 0x41, 0x0F]) = .error (.wire (.format .lengthMismatch)) := by
  decide

/-! ### One step of each instruction -/

/-- P1 line 3, source property 3. -/
theorem test_crcreg :
    rspAnd (exec (.crcreg g1011 [0x41]) State.reset) (fun r => r.status == 0 && r.value == 0) = true := by decide +kernel
/-- P1 line 11: the leading bit of the generator may be 0. -/
theorem test_crcreg_leadingZero :
    rspAnd (exec (.crcreg (b 4 0b0011) [0xF0]) State.reset) (fun r => r.status == 0 && r.value == 0b0010) = true := by
  decide +kernel
/-- S1. -/
theorem test_crcdiv :
    rspAnd (exec (.crcdiv g1011 (b 4 0b1101)) State.reset) (fun r => r.status == 0 && r.bits == b 3 0b001) = true := by
  decide +kernel
/-- P1 line 10, with a `BITS_MAX` that the operands just fit and the working buffer would not (R101, R107). -/
theorem test_crcdiv_leadingZero :
    rspAnd (exec (.crcdiv (b 4 0b0011) (b 4 0b1101))
      { State.reset with params := { Config.Params.default with bitsMax := some 4 } }) (fun r => r.status == 1 && r.info == 2) = true := by
  decide
/-- S1. -/
theorem test_crcenc :
    rspAnd (exec (.crcenc g1011 (b 4 0b1101)) State.reset)
      (fun r => r.status == 0 && r.bits == b 7 0b1101001) = true := by decide +kernel
/-- S1. -/
theorem test_crcvfy :
    rspAnd (exec (.crcvfy g1011 (b 7 0b1101001)) State.reset)
      (fun r => r.status == 0 && r.flag && r.bits == b 3 0) = true := by decide +kernel
/-- S2, position 0: the remainder is that of the zero-appending verifier. -/
theorem test_crcvfy_flipped :
    rspAnd (exec (.crcvfy g1011 (b 7 0b0101001)) State.reset)
      (fun r => r.status == 0 && !r.flag && r.bits == b 3 0b100) = true := by decide +kernel
/-- The worked example of R116. -/
theorem test_divtrc :
    rspAnd (exec (.divtrc g1011 (b 4 0b1101)) State.reset) (fun r =>
      r.status == 0 && r.bits == b 3 0b001 && r.trace ==
        [{ position := 0, segment := b 4 0b1101, generator := g1011, result := b 4 0b0110 },
         { position := 1, segment := b 4 0b1100, generator := g1011, result := b 4 0b0111 },
         { position := 2, segment := b 4 0b1110, generator := g1011, result := b 4 0b0101 },
         { position := 3, segment := b 4 0b1010, generator := g1011, result := b 4 0b0001 }]) = true := by decide +kernel
/-- R207: without `HAS_TRACE` the selector is answered `BadOp`, whatever the operands hold. -/
theorem test_divtrc_absent :
    rspAnd (exec (.divtrc g1011 (b 4 0b1101))
      { State.reset with params := { Config.Params.default with hasTrace := false, bitsMax := some 0 } })
      (fun r => r.status == 7 && r.info == 0) = true := by decide
/-- R117. -/
theorem test_bytes2b :
    rspAnd (exec (.bytes2b [0x41]) State.reset) (fun r => r.status == 0 && r.bits == b 8 0b01000001) = true := by decide
/-- R118. -/
theorem test_b2bytes :
    rspAnd (exec (.b2bytes (b 9 0b010000011)) State.reset)
      (fun r => r.status == 0 && r.bytes == [0x41, 0x80]) = true := by decide +kernel
/-- R120: `'1101 0001'`. -/
theorem test_classify :
    rspAnd (exec (.classify [0x31, 0x31, 0x30, 0x31, 0x20, 0x30, 0x30, 0x30, 0x31]) State.reset)
      (fun r => r.status == 0 && r.flag) = true := by decide
/-- R121(c): a tab is not a space. -/
theorem test_classify_tab :
    rspAnd (exec (.classify [0x31, 0x09, 0x30]) State.reset) (fun r => r.status == 0 && !r.flag) = true := by decide
/-- R133: `'1101'`. -/
theorem test_txt2pay :
    rspAnd (exec (.txt2pay [0x31, 0x31, 0x30, 0x31]) State.reset)
      (fun r => r.status == 0 && r.bytes == [0xD0]) = true := by decide +kernel
/-- R133: `'Hi'`. -/
theorem test_txt2pay_text :
    rspAnd (exec (.txt2pay [0x48, 0x69]) State.reset)
      (fun r => r.status == 0 && r.bytes == [0x48, 0x69]) = true := by decide
/-- P2 line 1, with `seq = 263`, which is 7 modulo 256. -/
theorem test_blddata :
    rspAnd (exec (.blddata [0x48, 0x69] g1011 263) State.reset)
      (fun r => r.status == 0 && r.bytes == [0x01, 0x00, 0x07, 0x00, 0x02, 0x48, 0x69, 0x07]) = true := by decide +kernel
/-- P2 line 10. -/
theorem test_blddata_gen :
    rspAnd (exec (.blddata [0x48, 0x69] (b 9 0b100000111) 7) State.reset)
      (fun r => r.status == 1 && r.info == 1) = true := by decide +kernel
/-- P2 lines 6 and 7. -/
theorem test_bldack :
    rspAnd (exec (.bldack 7 true g1011) State.reset)
      (fun r => r.status == 0 && r.bytes == [0x01, 0x01, 0x07, 0x00, 0x00, 0x02]) = true ∧
    rspAnd (exec (Instr.bldnack 7 g1011) State.reset)
      (fun r => r.status == 0 && r.bytes == [0x01, 0x02, 0x07, 0x00, 0x00, 0x01]) = true := by decide +kernel
/-- P2 line 3: a corrupted payload byte. -/
theorem test_parse :
    rspAnd (exec (.parse [0x01, 0x00, 0x07, 0x00, 0x02, 0x48, 0x68, 0x07] g1011) State.reset)
      (fun r => r.status == 0 && !r.flag && r.fields ==
        { version := 1, type := 0, seq := 7, length := 2, payload := [0x48, 0x68], checksum := 7 }) = true := by decide +kernel
/-- P2 lines 4 and 5. -/
theorem test_parse_format :
    rspAnd (exec (.parse [0x01, 0x00, 0x07, 0x00, 0x02, 0x48, 0x69] g1011) State.reset)
      (fun r => r.status == 2 && r.info == 2) = true ∧
    rspAnd (exec (.parse [0x01, 0x00, 0x07, 0x00, 0x02] g1011) State.reset)
      (fun r => r.status == 2 && r.info == 1) = true := by decide +kernel
/-- P3 line 1. -/
theorem test_send :
    nextAnd (exec (.send [0x48, 0x69] true) State.reset) (fun t =>
      t.phase == .sending && t.seqCtr == 1 && t.pr.frame == [0x01, 0x00, 0x00, 0x00, 0x02, 0x48, 0x69, 0x00] &&
      t.ws == { valid := true, seq := 0, result := .pending, signal := false }) = true := by decide +kernel
/-- A second `SEND` is answered `Busy`. -/
theorem test_send_busy :
    rspAnd (exec (.send [0x48] false) awaiting) (fun r => r.status == 6) = true := by decide
/-- The empty DATA frame of sequence number 0 with its right checksum 4 (95_test_vectors.md 2.6). -/
theorem test_rxData_match :
    nextAnd (exec (.rxData 1 0 0 [] 4) (holding .parse 0))
      (fun t => (t.context 3).any fun c => c.step == .testInsert && c.frame.fields.checksum == 4) = true := by decide +kernel
/-- The same frame with the checksum 5: a NACK is to be sent. -/
theorem test_rxData_mismatch :
    nextAnd (exec (.rxData 1 0 0 [] 5) (holding .parse 0))
      (fun t => (t.context 3).any fun c => c.step == .nack) = true := by decide +kernel
/-- The worked example of R177: the slot of sequence number 7 is acknowledged. -/
theorem test_rxAck :
    nextAnd (exec (.rxAck 1 7 0 [] 2) { awaiting with rxc := [(3, ctx .ackNack 1)], cur := 3 })
      (fun t => t.ws == { valid := true, seq := 7, result := .acked, signal := true } && t.rxc.isEmpty) = true := by
  decide
/-- The same reply as a NACK. -/
theorem test_rxNack :
    nextAnd (exec (.rxNack 1 7 0 [] 1) { awaiting with rxc := [(3, ctx .ackNack 2)], cur := 3 })
      (fun t => t.ws == { valid := true, seq := 7, result := .nacked, signal := true } && t.rxc.isEmpty) = true := by
  decide

/-! ### Witnesses: for every statement with hypotheses, a case that meets them -/

theorem witness_DecodeOfEncodeIsIdentity :
    (Instr.rxData 1 7 2 [0x48, 0x69] 7).wellFormed = true ∧ (Instr.send [] true).wellFormed = true := by decide

theorem witness_DecodedMessageReencodes :
    decode (.message [0x02, 0x00, 0x00, 0x00, 0x01, 0x41, 0xFF]) = .ok (.rxData 2 0 1 [0x41] 0xFF) := by decide

theorem witness_WireOperationSelectedByType :
    parseFields [0x02, 0x02, 0x09, 0x00, 0x00, 0x01] =
      .ok { version := 2, type := 2, seq := 9, length := 0, payload := [], checksum := 1 } := by decide

theorem witness_FormatChecksAndFrameMap :
    ([1, 2, 3, 4, 5] : Bytes).length < 6 ∧
    (6 ≤ ([1, 0, 0, 0, 1, 0] : Bytes).length ∧ 256 * 0 + 1 ≠ ([1, 0, 0, 0, 1, 0] : Bytes).length - 6) ∧
    (6 ≤ ([1, 0, 0, 0, 0, 0] : Bytes).length ∧ 256 * 0 + 0 = ([1, 0, 0, 0, 0, 0] : Bytes).length - 6) := by decide

theorem witness_StepRunsDecodedOperation :
    ((fed (.cmd (full 0x05))).nextStimulus = .cmd (full 0x05) ∧
      decode (.cmd (full 0x05)) = .ok (.bytes2b [0x41])) ∧
    (let s := { holding .parse 1 with sched := [.run (.context 3)] };
      s.nextStimulus = .run (.context 3) ∧ s.context 3 = some (ctx .parse 1) ∧ (ctx .parse 1).step = .parse ∧
      decode (.message (ctx .parse 1).bytes) = .ok (.rxAck 1 7 0 [] 2)) ∧
    (let s := { holding .ackNack 1 with sched := [.run (.context 3)] };
      s.nextStimulus = .run (.context 3) ∧ s.context 3 = some (ctx .ackNack 1) ∧
      (ctx .ackNack 1).step ≠ .parse ∧ (Instr.rxAck 1 7 0 [] 2).isWire = true) := by decide

theorem witness_ReservedSelectorAnswersBadOp :
    ((fed (.cmd (full 0x0D))).nextStimulus = .cmd (full 0x0D) ∧ 0x0D ≤ (full 0x0D).op.toNat) ∧
    0x0D ≤ (full 0xFF).op.toNat ∧
    (let s := { fed (.cmd (full 0x04)) with params := { Config.Params.default with hasTrace := false } };
      s.nextStimulus = .cmd (full 0x04) ∧ (full 0x04).op = 0x04 ∧ s.params.hasTrace = false) := by decide

/-- Two different `BYTES2B` commands that agree on the one operand listed. -/
theorem witness_UnlistedOperandsIgnored :
    let c := full 0x05;
    let d := { full 0x05 with gen := [], bits := [], seq := 0, flag := false };
    c ≠ d ∧ c.op = d.op ∧ c.bytes = d.bytes ∧ c.op.toNat = 0x05 := by decide

/-- Both clauses, at both ends of the ranges of `r`, for widths 1 and 8. -/
theorem witness_RegStepShiftsAndReduces :
    (1 ≤ 1 ∧ 1 < 2 ^ 1 ∧ 0 < 2 ^ 1 ∧ 0 < 2 ^ (1 - 1)) ∧ (1 < 2 ^ 1 ∧ 2 ^ (1 - 1) ≤ 1) ∧
    (255 < 2 ^ 8 ∧ 127 < 2 ^ (8 - 1)) ∧ (128 < 2 ^ 8 ∧ 2 ^ (8 - 1) ≤ 128) ∧ 2 ^ (8 - 1) ≤ 255 := by decide

/-- Generators of 1, 8, 0 and 9 bits. -/
theorem witness_RegisterModeAnswers :
    (buffersFit State.reset.params 1 1 = true ∧ 1 ≤ (b 1 1).length ∧ (b 1 1).length ≤ 8) ∧
    (buffersFit State.reset.params 8 1 = true ∧ 1 ≤ (b 8 1).length ∧ (b 8 1).length ≤ 8) ∧
    (buffersFit State.reset.params 0 1 = true ∧ ([] : Bits).length < 1) ∧
    (buffersFit State.reset.params 9 1 = true ∧ 8 < (b 9 1).length) := by decide

theorem witness_RegisterModeIsPolynomialRemainder : 1 ≤ (b 1 0).length ∧ 1 ≤ (b 9 1).length := by decide

theorem witness_RegisterModeCornerCases :
    1 ≤ 1 ∧ (b 8 0x41).length ≤ (b 8 0xFF).length := by decide

/-- A one-bit generator, a generator of exactly `DIV_GEN_MAX` bits with a working buffer of exactly `BITS_MAX` bits,
and the three ways to fail; for a leading 0 with operands of exactly `BITS_MAX` bits and no room for the buffer. -/
theorem witness_ExactDivisionAnswers :
    let p := { Config.Params.default with divGenMax := some 4, bitsMax := some 7 };
    let q := { Config.Params.default with bitsMax := some 4 };
    (buffersFit p (max g1011.length (b 4 0b1101).length) 0 = true ∧
      buffersFit p ((b 4 0b1101).length + (g1011.length - 1)) 0 = true) ∧
    (buffersFit q (max (b 4 0b0011).length (b 4 0b1101).length) 0 = true ∧
      buffersFit q ((b 4 0b1101).length + ((b 4 0b0011).length - 1)) 0 = false) ∧
    ((b 1 1).getD 0 false = true ∧ (∀ m, p.divGenMax = some m → (b 1 1).length ≤ m)) ∧
    (g1011.getD 0 false = true ∧ (∀ m, p.divGenMax = some m → g1011.length ≤ m)) ∧
    ([] : Bits).getD 0 false = false ∧ (b 4 0b0011).getD 0 false = false ∧
    (∃ m, p.divGenMax = some m ∧ m < (b 5 0b10011).length) := by
  refine ⟨by decide, by decide, ⟨by decide, ?_⟩, ⟨by decide, ?_⟩, by decide, by decide, 4, rfl, by decide⟩ <;>
    · rintro m ⟨⟩
      decide

theorem witness_LongDivisionClearsQuotientBits :
    (g1011.getD 0 false = true ∧ g1011.length - 1 ≤ (b 3 0b111).length) ∧
    ((b 1 1).getD 0 false = true ∧ (b 1 1).length - 1 ≤ ([] : Bits).length) := by decide

theorem witness_ExactDivisionIsPolynomialRemainder :
    (b 1 1).getD 0 false = true ∧ g1011.getD 0 false = true := by decide

theorem witness_CodewordsVerify :
    crcEnc Config.Params.default g1011 (b 4 0b1101) = .ok (b 7 0b1101001) := by decide

theorem witness_SingleBitErrorsDetected :
    crcEnc Config.Params.default (b 2 0b11) [] = .ok [false] ∧ 2 ≤ (b 2 0b11).length ∧
    (b 2 0b11).getLastD false = true ∧ 0 < [false].length := by decide

theorem witness_TraceNarratesTheDivision :
    buffersFit State.reset.params (max g1011.length (b 4 0b1101).length) 0 = true ∧
    buffersFit State.reset.params ((b 4 0b1101).length + (g1011.length - 1)) 0 = true ∧
    State.reset.params.hasTrace = true ∧ divGenOK State.reset.params g1011 = true ∧
    divGenOK State.reset.params [] = false := by decide

theorem witness_UnpackingAnswers :
    buffersFit State.reset.params (8 * ([0x41] : Bytes).length) ([0x41] : Bytes).length = true ∧
    0 < ([0x41] : Bytes).length := by decide

theorem witness_PackingAnswers :
    buffersFit State.reset.params (b 9 1).length (((b 9 1).length + 7) / 8) = true := by decide

theorem witness_ClassifyAnswers : buffersFit State.reset.params 0 ([0x31] : Bytes).length = true := by decide

/-- A raw text, the empty text, and a text that is not raw: every text falls under one clause. -/
theorem witness_TextToPayloadAnswers :
    buffersFit State.reset.params 0 ([0x31] : Bytes).length = true ∧
    ((∃ x ∈ ([0x31] : Bytes), x ≠ 0x20) ∧ ∀ x ∈ ([0x31] : Bytes), x = 0x20 ∨ x = 0x30 ∨ x = 0x31) ∧
    (∀ x ∈ ([] : Bytes), x = 0x20) ∧
    (∃ x ∈ ([0x31, 0x09] : Bytes), x ≠ 0x20 ∧ x ≠ 0x30 ∧ x ≠ 0x31) := by decide

/-- Payloads of 65535 and 65536 bytes, generators of 0, 1, 8 and 9 bits. -/
theorem witness_BuildDataAnswers :
    (∀ n m, buffersFit State.reset.params n m = true) ∧
    (([] : Bits).length < 1 ∧ 8 < (b 9 1).length) ∧ (1 ≤ (b 1 1).length ∧ (b 8 1).length ≤ 8) ∧
    65535 < (List.replicate 65536 (0 : Byte)).length ∧ (List.replicate 65535 (0 : Byte)).length ≤ 65535 := by
  refine ⟨fun n m => buffersFit_of_none rfl rfl n m, by decide, by decide, ?_, ?_⟩
  · rw [List.length_replicate]; omega
  · rw [List.length_replicate]

theorem witness_BuildAckAnswers :
    buffersFit State.reset.params (b 8 1).length 0 = true ∧ ([] : Bits).length < 1 ∧ 8 < (b 9 1).length ∧
    1 ≤ (b 1 1).length ∧ (b 8 1).length ≤ 8 := by decide

theorem witness_ParseAnswers :
    (∀ n m, buffersFit State.reset.params n m = true) ∧
    (([] : Bits).length < 1 ∧ 8 < (b 9 1).length) ∧ (1 ≤ g1011.length ∧ g1011.length ≤ 8) ∧
    ([1, 0, 0, 0, 0] : Bytes).length < 6 ∧
    (let f : Bytes := [1, 0, 0, 0, 1, 0x0F];
      6 ≤ f.length ∧ 256 * (f.getD 3 0).toNat + (f.getD 4 0).toNat ≠ f.length - 6) ∧
    (let f : Bytes := [1, 0, 0, 0, 0, 4];
      6 ≤ f.length ∧ 256 * (f.getD 3 0).toNat + (f.getD 4 0).toNat = f.length - 6) := by
  exact ⟨fun n m => buffersFit_of_none rfl rfl n m, by decide⟩

theorem witness_FrameRoundTrip :
    1 ≤ g1011.length ∧ g1011.length ≤ 8 ∧ ([0x41] : Bytes).length ≤ 65535 ∧
    (List.replicate 65535 (0 : Byte)).length ≤ 65535 := by
  refine ⟨by decide, by decide, by decide, ?_⟩
  rw [List.length_replicate]

theorem witness_ChecksumHasGeneratorWidth :
    1 ≤ (b 1 1).length ∧ (b 8 1).length ≤ 8 ∧ 2 ^ g1011.length ≤ (0x10 : Byte).toNat := by decide

theorem witness_UndetectedErrorsAreMultiples :
    1 ≤ g1011.length ∧ g1011.length ≤ 8 ∧ ([0x41] : Bytes).length = ([0x42] : Bytes).length := by decide

theorem witness_PureOperationsTouchNoRegister :
    (Instr.bytes2b [0x41]).isWire = false ∧ (∀ bytes isText, Instr.bytes2b [0x41] ≠ .send bytes isText) ∧
    ∃ t, exec (.bytes2b [0x41]) awaiting = .next t :=
  ⟨rfl, fun _ _ => by simp, _, rfl⟩

/-- A capacity of 0 bits or of 0 bytes stops each form; a message of one byte too many; no context. -/
theorem witness_StopsAreByName :
    let p := { Config.Params.default with bitsMax := some 0, bytesMax := some 0 };
    buffersFit p g1011.length ([] : Bytes).length = false ∧ buffersFit p g1011.length 0 = false ∧
    buffersFit p (max g1011.length ([] : Bits).length) 0 = false ∧ p.hasTrace = true ∧
    (let q := { Config.Params.default with bitsMax := some 4 };
      divGenOK q g1011 = true ∧ buffersFit q ((b 4 0b1101).length + (g1011.length - 1)) 0 = false) ∧
    buffersFit p [true].length (([true].length + 7) / 8) = false ∧
    buffersFit p (8 * ([0x41] : Bytes).length) ([0x41] : Bytes).length = false ∧
    buffersFit p 0 ([0x41] : Bytes).length = false ∧
    (let s := { fed (.rx [0x41] 9) with params := p };
      s.nextStimulus = .rx [0x41] 9 ∧ s.params.bytesMax = some 0 ∧ 0 < ([0x41] : Bytes).length) ∧
    State.reset.context State.reset.cur = none := by decide

theorem witness_StepAlwaysGoesOn :
    step { fed (.rx [0x41] 9) with params := { Config.Params.default with bytesMax := some 0 } } =
      .refused .overCapacity ∧
    State.reset.params.bitsMax = none ∧ State.reset.params.bytesMax = none :=
  ⟨rfl, rfl, rfl⟩

theorem witness_SendStarts :
    buffersFit State.reset.params 0 ([0x41] : Bytes).length = true ∧ State.reset.phase = .idle ∧
    State.reset.cfgFault = false ∧
    (if true then textToPayload [0x41] else [0x41]).length ≤ 65535 ∧
    (if false then textToPayload [0x41] else List.replicate 65535 (0x41 : Byte)).length ≤ 65535 := by
  refine ⟨by decide, by decide, by decide, by decide, ?_⟩
  simp only [Bool.false_eq_true, if_false, List.length_replicate]
  omega

theorem witness_SendTurnedAway :
    awaiting.phase ≠ .idle ∧
    (let s := State.resetWith { Config.Params.default with gen := [] };
      s.phase = .idle ∧ s.cfgFault = true) ∧
    (State.reset.phase = .idle ∧ State.reset.cfgFault = false ∧
      65535 < (if false then textToPayload [] else List.replicate 65536 (0x41 : Byte)).length) := by
  refine ⟨by decide, by decide, by decide, by decide, ?_⟩
  simp only [Bool.false_eq_true, if_false, List.length_replicate]
  omega

/-- A `SEND` about to transmit. -/
def sending : State := { awaiting with phase := .sending, timer := 0, sched := [.run .sender] }

theorem witness_SenderTransmits :
    sending.nextStimulus = .run .sender ∧ sending.phase = .sending ∧ sending.pr.txPending = false := by decide

theorem witness_SenderHearsTheTransport :
    ∀ ok : Bool,
      let s :=
        { sending with
          pr := { sending.pr with txPending := true }
          sched := [.txs (some .sender) ok] };
      s.nextStimulus = .txs (some .sender) ok ∧ s.phase = .sending ∧ s.pr.txPending = true := by decide

/-- The four clauses: an ACK or a NACK stored (with the timer at 0 too), a timeout, a wait. -/
theorem witness_SenderWakesOrTimesOut :
    let s := { awaiting with sched := [.run .sender] };
    let set (r : SlotResult) : State := { s with ws := { s.ws with result := r, signal := true }, timer := 0 };
    (s.nextStimulus = .run .sender ∧ s.phase = .awaitingAck ∧ s.ws.signal = false ∧ s.timer ≠ 0) ∧
    ((set .acked).ws.signal = true ∧ (set .acked).ws.result = .acked) ∧
    ((set .nacked).ws.signal = true ∧ (set .nacked).ws.result ≠ .acked) ∧
    ({ s with timer := 0 } : State).timer = 0 := by decide

/-- The end of the pause with 2 and with 3 transmissions made. -/
def pauseOver (n : BitVec 2) : State :=
  { awaiting with
    phase := .pausing
    timer := 0
    pauseKind := true
    ws := { awaiting.ws with result := .nacked, signal := true }
    pr := { awaiting.pr with retriesUsed := n }
    sched := [.run .sender] }

theorem witness_PauseEnds :
    (pauseOver 2).nextStimulus = .run .sender ∧ (pauseOver 2).phase = .pausing ∧ (pauseOver 2).timer = 0 ∧
    (pauseOver 2).pr.retriesUsed.toNat < 3 ∧ (pauseOver 3).pr.retriesUsed.toNat = 3 := by decide

/-- A `SEND` that has ended with outcome `o`. -/
def ended (ph : Phase) (o : SendOutcome) : State :=
  { awaiting with phase := ph, timer := 0, pr := { awaiting.pr with outcome := o }, sched := [.run .sender] }

theorem witness_SendFinishes :
    ((ended .acked .success).nextStimulus = .run .sender ∧ (ended .acked .success).phase = .acked ∧
      (ended .acked .success).pr.outcome = .success) ∧
    ((ended .failed .exhausted).phase = .failed ∧ (ended .failed .exhausted).pr.outcome = .exhausted) ∧
    ((ended .failed .sendError).phase = .failed ∧ (ended .failed .sendError).pr.outcome = .sendError) := by decide

theorem witness_TimerTicks :
    let s := { awaiting with sched := [.tick] };
    (s.nextStimulus = .tick ∧ s.phase = .awaitingAck ∧ 0 < s.timer) ∧
    ({ s with timer := 0 } : State).timer = 0 ∧
    ((fed .tick).phase ≠ .awaitingAck ∧ (fed .tick).phase ≠ .pausing) := by decide

/-- The transport's answer `ok` arrives for the request of a `SEND`. -/
def answered (ok : Bool) : State :=
  { sending with pr := { sending.pr with txPending := true }, sched := [.txs (some .sender) ok] }

/-- A reply `r` is stored while the sender waits. -/
def replied (r : SlotResult) : State :=
  { awaiting with ws := { awaiting.ws with result := r, signal := true }, sched := [.run .sender] }

/-- One step through each line of the table of R151 that changes `PHASE`. -/
theorem witness_SenderTransitionsAreTheTable :
    (∃ t, step (fed (.cmd (full 0x0C))) = .next t ∧ t.phase = .sending) ∧
    (∃ t, step (answered true) = .next t ∧ t.phase = .awaitingAck) ∧
    (∃ t, step (answered false) = .next t ∧ t.phase = .failed ∧ t.pr.outcome = .sendError) ∧
    (∃ t, step (replied .acked) = .next t ∧ t.phase = .acked) ∧
    (∃ t, step (replied .nacked) = .next t ∧ t.phase = .pausing ∧ t.pauseKind = true) ∧
    (∃ t, step { awaiting with timer := 0, sched := [.run .sender] } = .next t ∧ t.phase = .pausing) ∧
    (∃ t, step (pauseOver 2) = .next t ∧ t.phase = .sending) ∧
    (∃ t, step (pauseOver 3) = .next t ∧ t.phase = .failed) ∧
    (∃ t, step (ended .acked .success) = .next t ∧ t.phase = .idle) ∧
    (∃ t, step (ended .failed .exhausted) = .next t ∧ t.phase = .idle) ∧
    isReset (.run .sender) = false ∧ isReset (.txs (some .sender) true) = false ∧
    isReset (.cmd (full 0x0C)) = false :=
  ⟨⟨_, rfl, rfl⟩, ⟨_, rfl, rfl⟩, ⟨_, rfl, rfl, rfl⟩, ⟨_, rfl, rfl⟩, ⟨_, rfl, rfl, rfl⟩, ⟨_, rfl, rfl⟩, ⟨_, rfl, rfl⟩,
    ⟨_, rfl, rfl⟩, ⟨_, rfl, rfl⟩, ⟨_, rfl, rfl⟩, rfl, rfl, rfl⟩

/-- `BlockInv` holds of the state after that reply, so the premise of its clause is met. -/
theorem witness_SenderTransitionsAreTheTable_nacked : BlockInv (replied .nacked) ∧ (replied .nacked).ws.signal = true :=
  ⟨⟨rfl, by decide, by decide, by decide, by decide, by decide, by decide, by decide,
    fun _ => ⟨[0x41], by decide, rfl⟩, by decide, by decide, fun h => absurd h (by decide), List.Pairwise.nil,
    fun _ h => absurd h (by simp [replied, awaiting, State.reset, State.resetWith, Config.Params.default]),
    fun _ _ h => absurd h (by simp [replied, awaiting, State.reset, State.resetWith, State.context, lookupContext])⟩,
    rfl⟩

theorem witness_FrameNeverChangesWhileSending :
    ∃ t, step sending = .next t ∧ isReset sending.nextStimulus = false ∧ sending.phase ≠ .idle :=
  ⟨_, rfl, rfl, by decide⟩

/-- A `SEND` accepted with the counter at its last value, and a step of the sender. -/
theorem witness_CounterAdvancesOncePerSend :
    (∃ t, step { fed (.cmd (full 0x0C)) with seqCtr := 0xFF } = .next t ∧ t.seqCtr = 0) ∧
    (∃ t, step sending = .next t) ∧ isReset sending.nextStimulus = false ∧
    isReset (fed (.cmd (full 0x0C))).nextStimulus = false :=
  ⟨⟨_, rfl, by decide⟩, ⟨_, rfl⟩, rfl, rfl⟩

theorem witness_SignalIsALatch :
    (∃ t, step (pauseOver 2) = .next t ∧ isReset (pauseOver 2).nextStimulus = false ∧
      (pauseOver 2).ws.signal = true ∧ t.ws.signal = false) ∧
    (let s := { fed (.cmd (full 0x0C)) with ws := { State.reset.ws with signal := true } };
      ∃ t, step s = .next t ∧ s.ws.signal = true ∧ t.ws.signal = false) :=
  ⟨⟨_, rfl, rfl, rfl, rfl⟩, ⟨_, rfl, rfl, rfl⟩⟩

theorem witness_UnansweredSendIsExhausted :
    let s := { State.reset with sched := lostSend Config.Params.default [0x41] false ++ [Config.Stimulus.tick] };
    s.sched = lostSend s.params [0x41] false ++ [.tick] ∧ s.phase = .idle ∧ s.cfgFault = false ∧
    buffersFit s.params 0 ([0x41] : Bytes).length = true ∧
    (if false then textToPayload [0x41] else [0x41]).length ≤ 65535 :=
  ⟨rfl, rfl, rfl, rfl, by decide⟩

/-- One context allowed and none there; one allowed and one there; a message of exactly `BYTES_MAX` bytes. -/
theorem witness_MessagesGetTheirOwnContext :
    let p := { Config.Params.default with rxContexts := some 1, bytesMax := some 2 };
    let s := { fed (.rx [0x01, 0x00] 9) with params := p };
    let u := { s with rxc := [(3, ctx .parse 1)] };
    (s.ContextsRising ∧ s.nextStimulus = .rx [0x01, 0x00] 9 ∧
      (∀ n, s.params.bytesMax = some n → ([0x01, 0x00] : Bytes).length ≤ n) ∧
      (∀ n, s.params.rxContexts = some n → s.rxc.length < n)) ∧
    (u.ContextsRising ∧ ∃ n, u.params.rxContexts = some n ∧ n ≤ u.rxc.length) := by
  refine ⟨⟨List.Pairwise.nil, rfl, ?_, ?_⟩, List.pairwise_singleton _ _, 1, rfl, by decide⟩ <;>
    · rintro n ⟨⟩
      decide

/-- With `CFG_FAULT` at 0 and at 1. -/
theorem witness_WireOperationsDispatch :
    let s := holding .parse 1;
    let u := { s with cfgFault := true };
    (s.ContextsRising ∧ s.context s.cur = some (ctx .parse 1) ∧ (ctx .parse 1).step = .parse ∧
      s.cfgFault = false) ∧
    (u.context u.cur = some (ctx .parse 1) ∧ u.cfgFault = true) :=
  ⟨⟨List.pairwise_singleton _ _, rfl, rfl, rfl⟩, rfl, rfl⟩

/-- A message that is too short, one of the wrong length, one of the first reserved type; and a
block with `CFG_FAULT = 1`. -/
theorem witness_UnusableMessagesDropped :
    let s (m : Bytes) : State :=
      { State.reset with rxc := [(3, { ctx .parse 1 with bytes := m })], sched := [.run (.context 3)] };
    (∀ m, (s m).ContextsRising ∧ (s m).nextStimulus = .run (.context 3) ∧
      (s m).context 3 = some { ctx .parse 1 with bytes := m } ∧ (s m).cfgFault = false ∧
      ({ s m with cfgFault := true } : State).nextStimulus = .run (.context 3) ∧
      ({ s m with cfgFault := true } : State).context 3 = some { ctx .parse 1 with bytes := m }) ∧
    decode (.message [1, 0, 0, 0, 0]) = .error (.wire (.format .tooShort)) ∧
    decode (.message [1, 0, 0, 0, 1, 0]) = .error (.wire (.format .lengthMismatch)) ∧
    decode (.message [1, 3, 0, 0, 0, 0]) = .error (.wire (.reservedType 3)) :=
  ⟨fun _ => ⟨List.pairwise_singleton _ _, rfl, rfl, rfl, rfl, rfl⟩, by decide, by decide, by decide⟩

/-- Sequence number 7, not in the delivered-set and in it. -/
theorem witness_MatchedDataIsInsertedOnce :
    let s := holding .testInsert 0;
    let u := { s with delivered := 1 <<< 7 };
    (s.context s.cur = some (ctx .testInsert 0) ∧ (ctx .testInsert 0).step = .testInsert ∧
      s.isDelivered 7 = false) ∧ (u.context u.cur = some (ctx .testInsert 0) ∧ u.isDelivered 7 = true) := by decide

theorem witness_DataContextsReplyAndDeliver :
    ∀ st ∈ [CtxStep.nack, .deliver, .ack], (holding st 0).context (holding st 0).cur = some (ctx st 0) := by decide

theorem witness_RepliesEndTheirContext :
    ∀ ok : Bool, ∀ st ∈ [CtxStep.nackWait, .ackWait],
      let s := { holding st 0 with sched := [.txs (some (.context 3)) ok] };
      s.rxc.map Prod.fst = [3] ∧ s.nextStimulus = .txs (some (.context 3)) ok ∧ s.context 3 = some (ctx st 0) := by
  decide

/-- With the slot of the frame's sequence number, and with that of another. -/
theorem witness_RepliesAreStoredInTheirSlot :
    ∀ ty ∈ [(1 : Byte), 2], ∀ q ∈ [(7 : Byte), 8],
      let s := { awaiting with ws := { awaiting.ws with seq := q }, rxc := [(3, ctx .ackNack ty)], cur := 3 };
      s.rxc.map Prod.fst = [3] ∧ s.context s.cur = some (ctx .ackNack ty) ∧ (ctx .ackNack ty).step = .ackNack ∧
      (ctx .ackNack ty).frame.fields.type = ty := by decide

theorem witness_SidesAreCoupledByTheSlotAlone :
    (∃ t, step { holding .ackNack 1 with sched := [.run (.context 3)] } = .next t) ∧ (∃ t, step sending = .next t) ∧
    sending.nextStimulus = .run .sender :=
  ⟨⟨_, rfl⟩, ⟨_, rfl⟩, rfl⟩

theorem witness_DeliveredSetOnlyGrows :
    let s := { holding .testInsert 0 with sched := [.run (.context 3)] };
    (∃ t, step s = .next t ∧ t.isDelivered 7 = true) ∧ isReset s.nextStimulus = false ∧ s.isDelivered 7 = false :=
  ⟨⟨_, rfl, by decide⟩, rfl, by decide⟩

theorem witness_DeliveriesMatchInsertions :
    let s := { holding .testInsert 0 with sched := [.run (.context 3)] };
    s.ContextsRising ∧ (∃ t, step s = .next t ∧ t.deliverCount = 1) ∧ isReset s.nextStimulus = false :=
  ⟨List.pairwise_singleton _ _, ⟨_, rfl, by decide⟩, rfl⟩

/-- An answer to nobody, to an idle sender, and to a context that awaits none. -/
theorem witness_UnawaitedAnswersDiscarded :
    (fed (.txs none true)).nextStimulus = .txs none true ∧
    ((fed (.txs (some .sender) true)).nextStimulus = .txs (some .sender) true ∧
      (fed (.txs (some .sender) true)).phase ≠ .sending) ∧
    (let s := { holding .parse 0 with sched := [.txs (some (.context 3)) false] };
      s.nextStimulus = .txs (some (.context 3)) false ∧ s.context 3 = some (ctx .parse 0) ∧
      (ctx .parse 0).step ≠ .nackWait ∧ (ctx .parse 0).step ≠ .ackWait) := by decide

theorem witness_ResetStepClearsEverything :
    ∀ g ∈ [([] : Bits), [true], b 8 1, b 9 1],
      let p := { Config.Params.default with gen := g };
      ({ awaiting with sched := [.rst p] } : State).nextStimulus = .rst p := by decide

/-- A `SEND` in progress beside a received ACK of its sequence number. -/
def busy : State :=
  { sending with rxc := [(3, { ctx .ackNack 1 with frame := checkFrame g1011 (ctx .ackNack 1).frame.fields })] }

theorem witness_InvariantKeptByEveryStep : BlockInv busy ∧ ∃ t, step busy = .next t := by
  have hc : ∀ k c, busy.context k = some c →
      c = { ctx .ackNack 1 with frame := checkFrame g1011 (ctx .ackNack 1).frame.fields } := by
    intro k c h
    by_cases hk : 3 = k
    · subst hk
      exact (Option.some.inj h).symm
    · simp [State.context, busy, lookupContext, hk] at h
  refine ⟨⟨rfl, by decide, by decide, by decide, by decide, by decide, by decide, by decide,
    fun _ => ⟨[0x41], by decide, rfl⟩, by decide, by decide, fun h => absurd h (by decide),
    List.pairwise_singleton _ _, fun _ h => absurd h (by simp [busy, sending, awaiting, State.reset, State.resetWith, Config.Params.default]), fun k c h => ?_⟩, _, rfl⟩
  rw [hc k c h]
  exact ⟨by decide, fun _ => ⟨by decide, rfl⟩, by decide, by decide, by decide, by decide, by decide⟩

end Sys2Proof.Tests
end

/-! ### A step runs the decoded operation -/

namespace Sys2Proof.Machine

open Sys2Proof

theorem step_cmd {s : State} {c : Cmd} (h : s.nextStimulus = .cmd c) : step s = takeCommand c s.popStimulus := by
  rw [step, h]; rfl

theorem step_run_context {s : State} {k : Nat} (h : s.nextStimulus = .run (.context k)) :
    step s = contextStep k s.popStimulus := by
  rw [step, h]; rfl

theorem takeCommand_of_decode {c : Cmd} {i : Instr} (h : decode (.cmd c) = .ok i) (s : State) :
    takeCommand c s = exec i s := by
  have hc : decodeCmd c = .ok i := h
  rw [takeCommand, hc]

/-- A step of a context in `Parse` whose message decodes runs the operation decoded (R171). -/
theorem contextStep_parse {k : Nat} {s : State} {c : Context} {i : Instr} (hc : s.context k = some c)
    (hp : c.step = .parse) (hd : decode (.message c.bytes) = .ok i) :
    contextStep k s = exec i { s with cur := k } := by
  have hm : decodeMessage c.bytes = .ok i := by
    rw [decode] at hd
    split at hd
    · next j hj => rw [hj]; cases hd; rfl
    · cases hd
  simp only [contextStep, hc, hp, if_true, hm]

/-- After `X.PARSE` a wire operation takes the step that the step register of its context names, whatever its
operands (R171). -/
theorem exec_wire_of_not_parse {s : State} {c : Context} {i : Instr} (hw : i.isWire = true)
    (hc : s.context s.cur = some c) (hp : c.step ≠ .parse) : exec i s = .next (xStep s.cur c s) := by
  have hwire (f : Fields) (next : Frame → CtxStep) : wireOp f next s = .next (xStep s.cur c s) :=
    wireOp_next.2 ⟨c, hc, by rw [if_neg hp]⟩
  cases i with
  | rxData v q n p cs => exact hwire _ _
  | rxAck v q n p cs => exact hwire _ _
  | rxNack v q n p cs => exact hwire _ _
  | _ => cases hw

theorem contextStep_of_not_parse {k : Nat} {s : State} {c : Context} (hc : s.context k = some c)
    (hp : c.step ≠ .parse) : contextStep k s = .next (xStep k c { s with cur := k }) := by
  simp only [contextStep, hc, hp, if_false]

/-- Settles O5: by what a command, `X.PARSE` and a later step of a context run. -/
theorem stepRunsDecodedOperation : Obligations.StepRunsDecodedOperation := by
  refine ⟨fun s c i hs hd => ?_, fun s k c i hs hc hp hd => ?_, fun s k c i hs hc hp hw => ?_⟩
  · rw [step_cmd hs, takeCommand_of_decode hd]
  · rw [step_run_context hs]
    exact contextStep_parse (by simpa using hc) hp hd
  · have hc' : s.popStimulus.context k = some c := by simpa using hc
    rw [step_run_context hs, contextStep_of_not_parse hc' hp]
    exact (exec_wire_of_not_parse (s := { s.popStimulus with cur := k }) hw hc' hp).symm

/-! ### A pure operation touches no register -/

/-- An operation that, when it completes, has issued one `RSP` and changed nothing else, the `RSP` depending on the
parameters and the count of free values alone (R23, R40). -/
def TouchesNoRegister (op : State → Host.Outcome State Fault Refusal) : Prop :=
  ∀ s t, op s = .next t → ∃ r : Rsp, t = s.afterRsp r ∧
    ∀ u : State, u.params = s.params → u.free = s.free → op u = .next (u.afterRsp r)

theorem State.raise_eq_afterRsp (s : State) (e : Err) :
    s.raise e = s.afterRsp { Config.freeRsp s.free with status := statusCode e.status, info := e.info } := rfl

theorem State.answer_eq_afterRsp (s : State) (fill : Rsp → Rsp) :
    s.answer fill = s.afterRsp { fill (Config.freeRsp s.free) with status := statusCode .ok, info := 0 } := rfl

/-- An error is answered alike in states with the same count of free values (R200). -/
theorem touchesNoRegister_raise (e : Err) : TouchesNoRegister fun s => .next (s.raise e) := by
  rintro s _ ⟨⟩
  refine ⟨_, s.raise_eq_afterRsp e, fun u _ hfree => ?_⟩
  simp only [u.raise_eq_afterRsp, hfree]

/-- What a pure operation does may depend on the parameters. -/
theorem touchesNoRegister_of_params {op : Config.Params → State → Host.Outcome State Fault Refusal}
    (h : ∀ p, TouchesNoRegister (op p)) : TouchesNoRegister fun s => op s.params s := by
  intro s t hst
  obtain ⟨r, ht, hu⟩ := h s.params s t hst
  refine ⟨r, ht, fun u hparams hfree => ?_⟩
  simp only [hparams]
  exact hu u hparams hfree

/-- When a pure operation completes, and with what: its error, or its results. -/
theorem pureOp_eq_next {s t : State} {n m : Nat} {w : Work} {r : Except Err (Rsp → Rsp)}
    (h : pureOp s n m w r = .next t) :
    buffersFit s.params n m = true ∧
      ((∃ e, r = .error e ∧ t = s.raise e) ∨
        ∃ fill, r = .ok fill ∧ buffersFit s.params w.nbits w.nbytes = true ∧ t = s.answer fill) := by
  cases r with
  | error e =>
    simp only [pureOp] at h
    split_ifs at h with hfit
    cases h
    exact ⟨hfit, .inl ⟨e, rfl, rfl⟩⟩
  | ok fill =>
    simp only [pureOp] at h
    split_ifs at h with hfit hwork
    cases h
    exact ⟨hfit, .inr ⟨fill, rfl, hwork, rfl⟩⟩

/-- `pureOp` reads the parameters, for its capacities, and the count of free values. -/
theorem touchesNoRegister_pureOp (n m : Nat) (w : Work) (r : Except Err (Rsp → Rsp)) :
    TouchesNoRegister fun s => pureOp s n m w r := by
  intro s t h
  obtain ⟨hfit, ⟨e, rfl, rfl⟩ | ⟨fill, rfl, hwork, rfl⟩⟩ := pureOp_eq_next h
  · refine ⟨_, s.raise_eq_afterRsp e, fun u hparams hfree => ?_⟩
    simp only [pureOp_error (s := u) w e (hparams ▸ hfit), u.raise_eq_afterRsp, hfree]
  · refine ⟨_, s.answer_eq_afterRsp fill, fun u hparams hfree => ?_⟩
    simp only [pureOp_ok (s := u) fill (hparams ▸ hfit) (hparams ▸ hwork), u.answer_eq_afterRsp, hfree]

theorem touchesNoRegister_execCrcdiv (gen msg : Bits) : TouchesNoRegister (execCrcdiv gen msg) :=
  touchesNoRegister_of_params (op := fun p s => pureOp s (divOperands gen msg) 0 (divWork gen msg) <|
    (crcDiv p gen msg).map fun rem r => { r with bits := rem }) fun _ => touchesNoRegister_pureOp _ _ _ _

theorem touchesNoRegister_execCrcenc (gen msg : Bits) : TouchesNoRegister (execCrcenc gen msg) :=
  touchesNoRegister_of_params (op := fun p s => pureOp s (divOperands gen msg) 0 (divWork gen msg) <|
    (crcEnc p gen msg).map fun cw r => { r with bits := cw }) fun _ => touchesNoRegister_pureOp _ _ _ _

theorem touchesNoRegister_execCrcvfy (gen cw : Bits) : TouchesNoRegister (execCrcvfy gen cw) :=
  touchesNoRegister_of_params (op := fun p s => pureOp s (divOperands gen cw) 0 (divWork gen cw) <|
    (crcVfy p gen cw).map fun (v : Bool × Bits) r => { r with flag := v.1, bits := v.2 }) fun _ => touchesNoRegister_pureOp _ _ _ _

/-- `DIVTRC` is a pure operation where it exists, and answers `BadOp` elsewhere (R115, R207). -/
theorem touchesNoRegister_execDivtrc (gen msg : Bits) : TouchesNoRegister (execDivtrc gen msg) := by
  refine touchesNoRegister_of_params (op := fun p s =>
    if p.hasTrace then
      pureOp s (divOperands gen msg) 0 (divWork gen msg) <|
        (divTrc p gen msg).map fun v r => { r with trace := v.1, bits := v.2 }
    else .next (s.raise errBadOp)) fun p => ?_
  cases p.hasTrace with
  | true => exact touchesNoRegister_pureOp _ _ _ _
  | false => exact touchesNoRegister_raise errBadOp

/-- The twelve pure operations (R40): each is a `pureOp` whose result is a function of its operands, and for exact
division of the parameters. -/
theorem touchesNoRegister_exec {i : Instr} (hwire : i.isWire = false)
    (hsend : ∀ bytes isText, i ≠ .send bytes isText) : TouchesNoRegister (exec i) := by
  cases i with
  | crcreg gen data => exact touchesNoRegister_pureOp _ _ _ _
  | crcdiv gen msg => exact touchesNoRegister_execCrcdiv gen msg
  | crcenc gen msg => exact touchesNoRegister_execCrcenc gen msg
  | crcvfy gen cw => exact touchesNoRegister_execCrcvfy gen cw
  | divtrc gen msg => exact touchesNoRegister_execDivtrc gen msg
  | bytes2b bytes => exact touchesNoRegister_pureOp _ _ _ (.ok _)
  | b2bytes bits => exact touchesNoRegister_pureOp _ _ _ (.ok _)
  | classify text => exact touchesNoRegister_pureOp _ _ _ (.ok _)
  | txt2pay text => exact touchesNoRegister_pureOp _ _ _ (.ok _)
  | blddata payload gen seq => exact touchesNoRegister_pureOp _ _ _ _
  | bldack seq positive gen => exact touchesNoRegister_pureOp _ _ _ _
  | parse frame gen => exact touchesNoRegister_pureOp _ _ _ _
  | send bytes isText => exact absurd rfl (hsend bytes isText)
  | rxData | rxAck | rxNack => cases hwire

/-- Settles O30: each pure operation is a `pureOp`, which reads the parameters and the count of free values alone. -/
theorem pureOperationsTouchNoRegister : Obligations.PureOperationsTouchNoRegister := by
  intro i s t hwire hsend h
  exact touchesNoRegister_exec hwire hsend s t h

end Sys2Proof.Machine

/-! ### Bit sequences as polynomials -/

namespace Sys2Proof

open Polynomial

/-- Exclusive or of two bits is addition in GF(2), at any power of `x`. -/
theorem monomial_xor (x y : Bool) (k : Nat) :
    (if x ^^ y then X ^ k else 0 : Polynomial (ZMod 2)) =
      (if x then X ^ k else 0) + (if y then X ^ k else 0) := by
  cases x <;> cases y <;> simp [CharTwo.add_self_eq_zero]

@[simp] theorem poly_nil : poly [] = 0 := by simp [poly]

theorem poly_cons (x : Bool) (b : Bits) :
    poly (x :: b) = (if x then X ^ b.length else 0) + poly b := by
  simp only [poly, List.length_cons, Finset.sum_range_succ', List.getD_cons_succ, List.getD_cons_zero,
    Nat.add_sub_cancel, Nat.sub_zero, Nat.sub_sub, Nat.add_comm 1]
  rw [add_comm]

@[simp] theorem poly_append (a b : Bits) : poly (a ++ b) = poly a * X ^ b.length + poly b := by
  induction a with
  | nil => simp
  | cons x a ih =>
    have hx : (if x then X ^ (a.length + b.length) else 0 : Polynomial (ZMod 2)) =
        (if x then X ^ a.length else 0) * X ^ b.length := by
      cases x <;> simp [pow_add]
    simp only [List.cons_append, poly_cons, List.length_append, ih, hx, add_mul, add_assoc]

@[simp] theorem poly_zeros (k : Nat) : poly (Machine.zeros k) = 0 := by
  simp [poly, Machine.zeros]

/-- Bitwise exclusive or of sequences of one length is the sum of their polynomials. -/
theorem poly_zipWith_xor {a b : Bits} (h : a.length = b.length) :
    poly (List.zipWith (· ^^ ·) a b) = poly a + poly b := by
  induction a generalizing b with
  | nil => simp [List.length_eq_zero_iff.1 h.symm]
  | cons x a ih =>
    obtain _ | ⟨y, b⟩ := b
    · simp at h
    · have hl : a.length = b.length := by simpa using h
      simp only [List.zipWith_cons_cons, poly_cons, List.length_zipWith, hl, min_self, monomial_xor, ih hl]
      ring

theorem degree_poly_lt (b : Bits) : (poly b).degree < b.length := by
  induction b with
  | nil => simp
  | cons x b ih =>
    have hb : (b.length : WithBot Nat) < (b.length + 1 : Nat) := by exact_mod_cast Nat.lt_succ_self _
    rw [poly_cons, List.length_cons]
    refine (degree_add_le _ _).trans_lt (max_lt ?_ (ih.trans hb))
    cases x
    · simp
    · simpa using hb

/-- The coefficient at the top position is the first bit. -/
theorem coeff_poly_cons (x : Bool) (b : Bits) : (poly (x :: b)).coeff b.length = if x then 1 else 0 := by
  rw [poly_cons, coeff_add, coeff_eq_zero_of_degree_lt (degree_poly_lt b)]
  cases x <;> simp

/-- Sequences of one length are told apart by their polynomials. -/
theorem poly_injective {a b : Bits} (hl : a.length = b.length) (h : poly a = poly b) : a = b := by
  induction a generalizing b with
  | nil => exact (List.length_eq_zero_iff.1 hl.symm).symm
  | cons x a ih =>
    obtain _ | ⟨y, b⟩ := b
    · simp at hl
    · have hl' : a.length = b.length := by simpa using hl
      have hc := congrArg (fun p => p.coeff b.length) h
      have hxy : x = y := by
        rw [← hl', coeff_poly_cons, hl', coeff_poly_cons] at hc
        cases x <;> cases y <;> simp_all
      subst hxy
      rw [poly_cons, poly_cons, hl'] at h
      rw [ih hl' (add_left_cancel h)]

/-- The generator of exact division is its leading power of `x` and the polynomial of its other bits. -/
theorem poly_true_cons (g : Bits) : poly (true :: g) = X ^ g.length + poly g := by simp [poly_cons]

theorem monic_X_pow_add_poly (g : Bits) : (X ^ g.length + poly g).Monic := monic_X_pow_add (degree_poly_lt g)

theorem degree_X_pow_add_poly (g : Bits) :
    (X ^ g.length + poly g).degree = (g.length : WithBot Nat) := by
  rw [degree_add_eq_left_of_degree_lt] <;> simp [degree_poly_lt g]

/-- Over GF(2) what differs from `p` by a multiple of `G`, and is of lower degree than `G`, is the remainder. -/
theorem eq_modByMonic_of_dvd_add {p r G : Polynomial (ZMod 2)} (hG : G.Monic) (hr : r.degree < G.degree)
    (h : G ∣ p + r) : r = p %ₘ G := by
  have hsub : G ∣ p - r := by rwa [CharTwo.sub_eq_add]
  rw [modByMonic_eq_of_dvd_sub hG hsub, (modByMonic_eq_self_iff hG).2 hr]

/-- A sequence as long as `g` is the remainder by `x^n + poly(g)`, `n` the length of `g`, when it differs from the
dividend by a multiple of it. Both divisors of the spec have this form: that of register mode (R104), and `poly(gen)`
for a generator with first bit 1 (R109, `poly_true_cons`). -/
theorem poly_eq_modByMonic {g r : Bits} {p : Polynomial (ZMod 2)} (hr : r.length = g.length)
    (h : X ^ g.length + poly g ∣ p + poly r) : poly r = p %ₘ (X ^ g.length + poly g) := by
  refine eq_modByMonic_of_dvd_add (monic_X_pow_add_poly g) ?_ h
  rw [degree_X_pow_add_poly, ← hr]
  exact degree_poly_lt r

end Sys2Proof

/-! ### The register and the buffer of a division as bit sequences -/

namespace Sys2Proof.Machine

open Sys2Proof

theorem bitsN_succ (n v : Nat) : bitsN (n + 1) v = v.testBit n :: bitsN n v := by
  simp [bitsN, List.range_succ_eq_map, Function.comp_def, Nat.sub_sub, Nat.add_comm 1]

theorem bitsN_succ_last (n v : Nat) : bitsN (n + 1) v = bitsN n (v / 2) ++ [v.testBit 0] := by
  rw [bitsN, List.range_succ, List.map_append, List.map_singleton, Nat.add_sub_cancel, Nat.sub_self, bitsN]
  congr 1
  refine List.map_congr_left fun i hi => ?_
  have hi : i < n := List.mem_range.1 hi
  rw [show n - i = n - 1 - i + 1 by omega, Nat.testBit_succ]

theorem bitsN_xor (n v w : Nat) : bitsN n (v ^^^ w) = List.zipWith (· ^^ ·) (bitsN n v) (bitsN n w) := by
  induction n with
  | zero => rfl
  | succ n ih => simp [bitsN_succ, ih]

/-- Only the low `n` bits count. -/
theorem bitsN_mod (n v : Nat) : bitsN n (v % 2 ^ n) = bitsN n v := by
  refine List.map_congr_left fun i hi => ?_
  have hi : i < n := List.mem_range.1 hi
  simp [Nat.testBit_mod_two_pow, show n - 1 - i < n by omega]

/-- `bitsN` undoes `val` (R11). -/
theorem bitsN_val (b : Bits) : bitsN b.length (val b) = b := by
  induction b using List.reverseRecOn with
  | nil => rfl
  | append_singleton b x ih =>
    rw [List.length_append, List.length_singleton, bitsN_succ_last, val_append_singleton]
    cases x <;> simp [ih, Nat.mul_add_div]

/-- `val` undoes `bitsN` on the numbers of `n` bits (R11). -/
theorem val_bitsN {n v : Nat} (h : v < 2 ^ n) : val (bitsN n v) = v := by
  induction n generalizing v with
  | zero => simp_all [bitsN]
  | succ n ih =>
    have hv : v / 2 < 2 ^ n := by omega
    rw [bitsN_succ_last, val_append_singleton, ih hv, Nat.testBit_zero]
    rcases Nat.mod_two_eq_zero_or_one v with h2 | h2 <;> simp [h2] <;> omega

/-- The shift of `RegStep` on the bits of the register: the top bit leaves and `b` enters at the low end (R102). -/
theorem bitsN_shift (n r : Nat) (b : Bool) :
    bitsN (n + 1) (((r <<< 1) ||| b.toNat) &&& (2 ^ (n + 1) - 1)) = bitsN n r ++ [b] := by
  have hor : (r <<< 1) ||| b.toNat = 2 * r + b.toNat := by
    rw [Nat.shiftLeft_eq, Nat.pow_one, Nat.mul_comm]
    exact (Nat.two_pow_add_eq_or_of_lt (i := 1) (by cases b <;> decide) r).symm
  rw [Nat.and_two_pow_sub_one_eq_mod, bitsN_mod, hor, bitsN_succ_last]
  cases b <;> simp [Nat.mul_add_div]

theorem regStep_lt {n gv r : Nat} {b : Bool} (h : gv < 2 ^ n) : regStep n gv r b < 2 ^ n := by
  have hmask : ((r <<< 1) ||| b.toNat) &&& (2 ^ n - 1) < 2 ^ n := by
    rw [Nat.and_two_pow_sub_one_eq_mod]
    exact Nat.mod_lt _ (Nat.two_pow_pos n)
  simp only [regStep]
  split_ifs
  · exact Nat.xor_lt_two_pow hmask h
  · exact hmask

/-- The register always holds an `n`-bit number (R21, R103). -/
theorem regRem_lt (gen m : Bits) : regRem gen m < 2 ^ gen.length := by
  induction m using List.reverseRecOn with
  | nil => simp
  | append_singleton m b _ => rw [regRem_append_singleton]; exact regStep_lt (val_lt gen)

/-- `RegStep` on the bits of the register: shift, then exclusive or with the generator iff the top bit was 1 (R102). -/
theorem bitsN_regStep {gen : Bits} {n : Nat} (hn : gen.length = n + 1) (r : Nat) (b : Bool) :
    bitsN gen.length (regStep gen.length (val gen) r b) =
      if r.testBit n then List.zipWith (· ^^ ·) (bitsN n r ++ [b]) gen else bitsN n r ++ [b] := by
  have hgen : bitsN (n + 1) (val gen) = gen := by rw [← hn, bitsN_val]
  rw [hn, regStep, Nat.add_sub_cancel]
  split_ifs
  · rw [bitsN_xor, bitsN_shift, hgen]
  · exact bitsN_shift n r b

/-! ### Register mode divides by `x^n + poly(gen)` -/

/-- One `RegStep` multiplies the register by `x`, adds the bit, and subtracts `x^n + poly(gen)` or nothing (R102). -/
theorem poly_regStep {gen : Bits} (hn : 1 ≤ gen.length) (r : Nat) (b : Bool) :
    poly (bitsN gen.length r) * Polynomial.X + poly [b] +
        poly (bitsN gen.length (regStep gen.length (val gen) r b)) =
      if r.testBit (gen.length - 1) then Polynomial.X ^ gen.length + poly gen else 0 := by
  obtain ⟨n, hn⟩ : ∃ n, gen.length = n + 1 := ⟨gen.length - 1, by omega⟩
  have hshift : poly (bitsN n r ++ [b]) = poly (bitsN n r) * Polynomial.X + poly [b] := by simp
  have hxor : poly (List.zipWith (· ^^ ·) (bitsN n r ++ [b]) gen) = poly (bitsN n r ++ [b]) + poly gen :=
    poly_zipWith_xor (by simp [hn])
  rw [bitsN_regStep hn, hn, bitsN_succ, poly_cons, bitsN_length, Nat.add_sub_cancel]
  split_ifs
  · rw [hxor, hshift]
    linear_combination CharTwo.add_self_eq_zero (poly (bitsN n r) * Polynomial.X + poly [b])
  · rw [hshift]
    linear_combination CharTwo.add_self_eq_zero (poly (bitsN n r) * Polynomial.X + poly [b])

/-- The invariant of register mode: the bits taken so far and the register differ by a multiple of
`x^n + poly(gen)`. -/
theorem dvd_poly_add_poly_regRem {gen : Bits} (hn : 1 ≤ gen.length) (m : Bits) :
    Polynomial.X ^ gen.length + poly gen ∣ poly m + poly (bitsN gen.length (regRem gen m)) := by
  induction m using List.reverseRecOn with
  | nil =>
    have h0 : bitsN gen.length 0 = zeros gen.length := by simp [bitsN, zeros]
    simp [h0]
  | append_singleton m b ih =>
    have hstep := poly_regStep hn (regRem gen m) b
    have hsum : poly (m ++ [b]) + poly (bitsN gen.length (regRem gen (m ++ [b]))) =
        (poly m + poly (bitsN gen.length (regRem gen m))) * Polynomial.X +
          if (regRem gen m).testBit (gen.length - 1) then Polynomial.X ^ gen.length + poly gen else 0 := by
      rw [← hstep, regRem_append_singleton, poly_append, List.length_singleton, pow_one]
      linear_combination -CharTwo.add_self_eq_zero (poly (bitsN gen.length (regRem gen m)) * Polynomial.X)
    rw [hsum]
    refine dvd_add (ih.mul_right _) ?_
    split_ifs
    · exact dvd_rfl
    · exact dvd_zero _

/-- R104. -/
theorem poly_regRem {gen : Bits} (hn : 1 ≤ gen.length) (m : Bits) :
    poly (bitsN gen.length (regRem gen m)) = poly m %ₘ (Polynomial.X ^ gen.length + poly gen) :=
  poly_eq_modByMonic (bitsN_length _ _) (dvd_poly_add_poly_regRem hn m)

/-- Settles O11: the register and the bits taken differ by a multiple of the divisor, and the register is short. -/
theorem registerModeIsPolynomialRemainder : Obligations.RegisterModeIsPolynomialRemainder := by
  intro gen m hn
  exact ⟨regRem_lt gen m, poly_regRem hn m⟩

/-! ### Undetected errors -/

/-- The checksum byte holds the register unchanged (R79, R132). -/
theorem checksum_toNat {gen : Bits} (h8 : gen.length ≤ 8) (d : Bytes) :
    (checksum gen d).toNat = regRem gen (bytesToBits d) := by
  have hlt := regRem_lt gen (bytesToBits d)
  have hpow : 2 ^ gen.length ≤ 2 ^ 8 := Nat.pow_le_pow_right (by decide) h8
  rw [checksum, Nat.and_two_pow_sub_one_eq_mod, Nat.mod_eq_of_lt hlt, BitVec.toNat_ofNat,
    Nat.mod_eq_of_lt (hlt.trans_le hpow)]

/-- Two registers of `n` bits are equal when their polynomials are. -/
theorem poly_bitsN_inj {n v w : Nat} (hv : v < 2 ^ n) (hw : w < 2 ^ n) :
    poly (bitsN n v) = poly (bitsN n w) ↔ v = w := by
  refine ⟨fun h => ?_, fun h => by rw [h]⟩
  have hbits : bitsN n v = bitsN n w := poly_injective (by simp) h
  rw [← val_bitsN hv, hbits, val_bitsN hw]

/-- Two bit sequences leave the same register exactly when `x^n + poly(gen)` divides their sum. -/
theorem regRem_eq_iff {gen : Bits} (hn : 1 ≤ gen.length) (a b : Bits) :
    regRem gen a = regRem gen b ↔ Polynomial.X ^ gen.length + poly gen ∣ poly a + poly b := by
  have hG := monic_X_pow_add_poly gen
  calc regRem gen a = regRem gen b
      ↔ poly a %ₘ (Polynomial.X ^ gen.length + poly gen) = poly b %ₘ (Polynomial.X ^ gen.length + poly gen) := by
        rw [← poly_bitsN_inj (regRem_lt gen a) (regRem_lt gen b), poly_regRem hn, poly_regRem hn]
    _ ↔ (poly a - poly b) %ₘ (Polynomial.X ^ gen.length + poly gen) = 0 := by
        rw [Polynomial.sub_modByMonic, sub_eq_zero]
    _ ↔ Polynomial.X ^ gen.length + poly gen ∣ poly a + poly b := by
        rw [Polynomial.modByMonic_eq_zero_iff_dvd hG, CharTwo.sub_eq_add]

/-- Settles O29: by `regRem_eq_iff`, since the checksum byte is the register. -/
theorem undetectedErrorsAreMultiples : Obligations.UndetectedErrorsAreMultiples := by
  intro gen d e h1 h8 _
  rw [← BitVec.toNat_inj, checksum_toNat h8, checksum_toNat h8]
  exact regRem_eq_iff h1 _ _

/-! ### Exact division divides by `poly(gen)` -/

/-- The exclusive or of `LongDiv` adds the generator's polynomial, lined up with the front of the buffer (R106). -/
theorem poly_xorOnto {g w : Bits} (h : g.length ≤ w.length) :
    poly (xorOnto g w) = poly w + poly g * Polynomial.X ^ (w.length - g.length) := by
  induction g generalizing w with
  | nil => simp [xorOnto]
  | cons x g ih =>
    obtain _ | ⟨b, w⟩ := w
    · simp at h
    · have hl : g.length ≤ w.length := by simpa using h
      have hx : (if x then Polynomial.X ^ w.length else 0 : Polynomial (ZMod 2)) =
          (if x then Polynomial.X ^ g.length else 0) * Polynomial.X ^ (w.length - g.length) := by
        cases x <;> simp [← pow_add, hl]
      rw [xorOnto, poly_cons, poly_cons, poly_cons, xorOnto_length, ih hl, monomial_xor, hx, List.length_cons,
        List.length_cons, Nat.add_sub_add_right]
      ring

/-- One position of `LongDiv` behind cleared bits: its bit is cleared, and the rest of the generator is XORed in
iff the bit was 1 (R106). -/
theorem divStep_zeros_append (g w : Bits) (x : Bool) (k : Nat) :
    divStep (true :: g) (zeros k ++ x :: w) k = zeros (k + 1) ++ if x then xorOnto g w else w := by
  have hbit : (zeros k ++ x :: w).getD k false = x := by simp [List.getD_eq_getElem?_getD]
  have hzeros : zeros (k + 1) = zeros k ++ [false] := List.replicate_succ'
  rw [divStep, hbit, hzeros]
  cases x
  · simp
  · simp [xorWindow, xorOnto]

/-- Clearing the bit at a position changes the buffer by a multiple of `poly(gen)` (R106). -/
theorem dvd_poly_add_poly_divStep {g w : Bits} (x : Bool) (h : g.length ≤ w.length) :
    poly (true :: g) ∣ poly (x :: w) + poly (if x then xorOnto g w else w) := by
  cases x with
  | false => simp [poly_cons, CharTwo.add_self_eq_zero]
  | true =>
    have hpow : (Polynomial.X : Polynomial (ZMod 2)) ^ g.length * Polynomial.X ^ (w.length - g.length) =
        Polynomial.X ^ w.length := by rw [← pow_add, Nat.add_sub_cancel' h]
    refine ⟨Polynomial.X ^ (w.length - g.length), ?_⟩
    rw [if_pos rfl, poly_xorOnto h, poly_true_cons, poly_true_cons]
    linear_combination CharTwo.add_self_eq_zero (poly w) - hpow

/-- Over GF(2) differing by a multiple of `G` is transitive. -/
theorem dvd_add_trans {G a b c : Polynomial (ZMod 2)} (hab : G ∣ a + b) (hbc : G ∣ b + c) : G ∣ a + c := by
  have hsum : a + c = (a + b) + (b + c) := by linear_combination -CharTwo.add_self_eq_zero b
  exact hsum ▸ dvd_add hab hbc

/-- The invariant of `LongDiv` after `k` positions: the first `k` bits are zero, and the rest differs from the buffer by
a multiple of `poly(gen)` (R106). -/
theorem foldl_divStep (g w : Bits) {k : Nat} (hk : k + g.length ≤ w.length) :
    ∃ rest, (List.range k).foldl (divStep (true :: g)) w = zeros k ++ rest ∧ k + rest.length = w.length ∧
      poly (true :: g) ∣ poly w + poly rest := by
  induction k with
  | zero => exact ⟨w, rfl, by simp, by simp [CharTwo.add_self_eq_zero]⟩
  | succ k ih =>
    obtain ⟨rest, hfold, hlen, hdvd⟩ := ih (by omega)
    obtain _ | ⟨x, w'⟩ := rest
    · rw [List.length_nil] at hlen; omega
    · rw [List.length_cons] at hlen
      have hstep := dvd_poly_add_poly_divStep (g := g) (w := w') x (by omega)
      refine ⟨if x then xorOnto g w' else w', ?_, ?_, dvd_add_trans hdvd hstep⟩
      · rw [List.range_succ, List.foldl_append, hfold]
        exact divStep_zeros_append g w' x k
      · cases x <;> simp <;> omega

/-- The whole `LongDiv`: it clears the quotient bits, and what is left differs from the buffer by a multiple of
`poly(gen)` (R106). -/
theorem longDiv_eq {g w : Bits} (h : g.length ≤ w.length) :
    ∃ rest, longDiv (true :: g) w = zeros (w.length - g.length) ++ rest ∧ rest.length = g.length ∧
      poly (true :: g) ∣ poly w + poly rest := by
  obtain ⟨rest, hfold, hlen, hdvd⟩ := foldl_divStep g w (k := w.length - g.length) (by omega)
  exact ⟨rest, hfold, by omega, hdvd⟩

/-- `ExactRem` is as long as the generator less its first bit, and differs from the padded message by a multiple of
`poly(gen)` (R107). -/
theorem exactRem_spec (g msg : Bits) :
    (exactRem (true :: g) msg).length = g.length ∧
      poly (true :: g) ∣ poly msg * Polynomial.X ^ g.length + poly (exactRem (true :: g) msg) := by
  obtain ⟨rest, hdiv, hlen, hdvd⟩ := longDiv_eq (g := g) (w := msg ++ zeros g.length) (by simp)
  have hrem : exactRem (true :: g) msg = rest := by
    rw [exactRem, List.length_cons, Nat.add_sub_cancel, hdiv, ← hlen]
    simp
  simp only [poly_append, poly_zeros, zeros_length, add_zero] at hdvd
  exact hrem ▸ ⟨hlen, hdvd⟩

/-- Settles O15: the remainder differs from the padded message by a multiple of `poly(gen)`, and is short. -/
theorem exactDivisionIsPolynomialRemainder : Obligations.ExactDivisionIsPolynomialRemainder := by
  intro gen msg hgen
  obtain ⟨g, rfl⟩ : ∃ g, gen = true :: g := by
    cases gen <;> simp_all
  obtain ⟨hlen, hdvd⟩ := exactRem_spec g msg
  refine ⟨hlen, ?_⟩
  rw [poly_true_cons] at hdvd ⊢
  exact poly_eq_modByMonic hlen hdvd

end Sys2Proof.Machine

/-! ### What the steps of `SENDER` do, and what each side of the block leaves to the other (R178) -/

namespace Sys2Proof.Machine

open Sys2Proof

/-- All the results a step of `SENDER` that waits for no transaction can have (R151), each with its guard. -/
inductive SenderResult (s : State) : State → Prop
  | waited : SenderResult s s
  | transmitted (hphase : s.phase = .sending) (hpending : s.pr.txPending = false) : SenderResult s (sTx s)
  | wokeAcked (hphase : s.phase = .awaitingAck) (hsignal : s.ws.signal = true) (hresult : s.ws.result = .acked) :
      SenderResult s { s with pr := { s.pr with outcome := .success }, phase := .acked }
  | wokeNacked (hphase : s.phase = .awaitingAck) (hsignal : s.ws.signal = true) (hresult : s.ws.result ≠ .acked) :
      SenderResult s { s with pauseKind := true, timer := retryPauseTicks s.params, phase := .pausing }
  | timedOut (hphase : s.phase = .awaitingAck) (hsignal : s.ws.signal = false) (htimer : s.timer = 0) :
      SenderResult s (sTimeout s)
  | pauseEnded (hphase : s.phase = .pausing) (htimer : s.timer = 0) (hretries : s.pr.retriesUsed.toNat < 3) :
      SenderResult s
        { s with ws := { s.ws with signal := s.ws.signal && !s.pauseKind }, phase := .sending }
  | exhausted (hphase : s.phase = .pausing) (htimer : s.timer = 0) (hretries : s.pr.retriesUsed.toNat = 3) :
      SenderResult s
        { s with
          ws := { s.ws with signal := s.ws.signal && !s.pauseKind, result := .failed }
          pr := { s.pr with outcome := .exhausted }
          phase := .failed }
  | finished (r : Rsp) (hphase : s.phase = .acked ∨ s.phase = .failed) :
      SenderResult s { s.afterRsp r with ws := { s.ws with valid := false }, phase := .idle }
  | finishedSilently (hphase : s.phase = .acked ∨ s.phase = .failed) (houtcome : s.pr.outcome = .none) :
      SenderResult s { s with ws := { s.ws with valid := false }, phase := .idle }

theorem sWake_result {s : State} (hphase : s.phase = .awaitingAck) (hsignal : s.ws.signal = true) :
    SenderResult s (sWake s) := by
  unfold sWake
  split_ifs with hresult
  · exact .wokeAcked hphase hsignal hresult
  · exact .wokeNacked hphase hsignal hresult

theorem sPauseEnd_result {s : State} (hphase : s.phase = .pausing) (htimer : s.timer = 0) :
    SenderResult s (sPauseEnd s) := by
  have hws : (if s.pauseKind then { s.ws with signal := false } else s.ws) =
      { s.ws with signal := s.ws.signal && !s.pauseKind } := by
    cases s.pauseKind <;> simp
  have hlt := s.pr.retriesUsed.isLt
  have hmax : Config.maxRetries = 3 := rfl
  simp only [sPauseEnd, hws, hmax]
  split_ifs with hretries
  · exact .pauseEnded hphase htimer hretries
  · exact .exhausted hphase htimer (by omega)

theorem sFinish_result {s : State} (hphase : s.phase = .acked ∨ s.phase = .failed) :
    SenderResult s (sFinish s) := by
  unfold sFinish sReport
  cases houtcome : s.pr.outcome with
  | success => exact .finished _ hphase
  | exhausted => exact .finished _ hphase
  | sendError => exact .finished _ hphase
  | none => exact .finishedSilently hphase houtcome

theorem senderStep_result (s : State) : SenderResult s (senderStep s) := by
  unfold senderStep
  cases hphase : s.phase with
  | idle => exact .waited
  | sending =>
    simp only
    split_ifs with hpending
    · exact .waited
    · exact .transmitted hphase (by simpa using hpending)
  | awaitingAck =>
    simp only
    split_ifs with hsignal htimer
    · exact sWake_result hphase hsignal
    · exact .timedOut hphase (by simpa using hsignal) htimer
    · exact .waited
  | pausing =>
    simp only
    split_ifs with htimer
    · exact sPauseEnd_result hphase htimer
    · exact .waited
  | acked => exact sFinish_result (.inl hphase)
  | failed => exact sFinish_result (.inr hphase)

/-- The three results of `S.START` (R152): an error before `S.ALLOC`, `LengthError` after it, or a `SEND` in
progress. -/
inductive StartResult (payload : Bytes) (s : State) : State → Prop
  | refused (e : Err) (h : s.phase ≠ .idle ∨ s.cfgFault = true) : StartResult payload s (s.raise e)
  | tooLong (hphase : s.phase = .idle) (hfault : s.cfgFault = false) (hlen : 65535 < payload.length) :
      StartResult payload s ((sAlloc s).raise errLength)
  | started (hphase : s.phase = .idle) (hfault : s.cfgFault = false) (hlen : payload.length ≤ 65535) :
      StartResult payload s (sRegister (sBuild payload (sAlloc s)))

theorem sStart_result (bytes : Bytes) (isText : Bool) (s : State) :
    StartResult (sendPayload bytes isText) s (sStart bytes isText s) := by
  unfold sStart
  split_ifs with hphase hfault hlen
  · exact .refused _ (.inl hphase)
  · exact .refused _ (.inr hfault)
  · exact .tooLong (not_not.1 hphase) (by simpa using hfault) hlen
  · exact .started (not_not.1 hphase) (by simpa using hfault) (Nat.le_of_not_lt hlen)

/-- The registers that only the sending side writes (R178). -/
structure SenderFrame (s t : State) : Prop where
  params : t.params = s.params
  cfgGen : t.cfgGen = s.cfgGen
  cfgFault : t.cfgFault = s.cfgFault
  seqCtr : t.seqCtr = s.seqCtr
  pr : t.pr = s.pr
  phase : t.phase = s.phase
  pauseKind : t.pauseKind = s.pauseKind
  timer : t.timer = s.timer

namespace SenderFrame

theorem refl (s : State) : SenderFrame s s := ⟨rfl, rfl, rfl, rfl, rfl, rfl, rfl, rfl⟩

theorem emit {s t : State} (h : SenderFrame s t) (o : PortOut) : SenderFrame s (t.emit o) := { h with }

theorem markDelivered {s t : State} (h : SenderFrame s t) (q : Byte) : SenderFrame s (t.markDelivered q) := { h with }

theorem endContext {s t : State} (h : SenderFrame s t) (k : Nat) : SenderFrame s (t.endContext k) := { h with }

theorem createContext {s t : State} (h : SenderFrame s t) (m : Bytes) (peer : Addr) :
    SenderFrame s (t.createContext m peer) := { h with }

theorem putContext {s t : State} (h : SenderFrame s t) (k : Nat) (c : Context) :
    SenderFrame s (t.putContext k c) := by
  unfold State.putContext
  split_ifs <;> exact { h with }

theorem storeReply {s t : State} (h : SenderFrame s t) (q : Byte) (r : SlotResult) :
    SenderFrame s (t.storeReply q r) := by
  unfold State.storeReply
  split_ifs
  · exact { h with }
  · exact h

end SenderFrame

theorem xAccept_senderFrame (m : Bytes) (peer : Addr) (s : State) : SenderFrame s (xAccept m peer s) := by
  unfold xAccept
  split_ifs
  · exact (SenderFrame.refl s).createContext m peer
  · exact .refl s

theorem xParse_senderFrame (k : Nat) (c : Context) (f : Fields) (next : Frame → CtxStep) (s : State) :
    SenderFrame s (xParse k c f next s) := by
  unfold xParse
  split_ifs
  · exact ((SenderFrame.refl s).emit _).endContext k
  · exact (SenderFrame.refl s).putContext k _

theorem xReject_senderFrame (k : Nat) (e : WireReject) (s : State) : SenderFrame s (xReject k e s) :=
  ((SenderFrame.refl s).emit _).endContext k

theorem xStep_senderFrame (k : Nat) (c : Context) (s : State) : SenderFrame s (xStep k c s) := by
  have hs := SenderFrame.refl s
  unfold xStep
  cases c.step with
  | nack => exact (hs.emit _).putContext k _
  | testInsert => exact (hs.markDelivered _).putContext k _
  | deliver => exact (hs.emit _).putContext k _
  | ack => exact (hs.emit _).putContext k _
  | ackNack => exact (hs.storeReply _ _).endContext k
  | parse | nackWait | ackWait | done => exact hs

theorem contextTxs_senderFrame (k : Nat) (ok : Bool) (s : State) : SenderFrame s (contextTxs k ok s) := by
  have hs := SenderFrame.refl s
  have hnack (c : Context) : SenderFrame s (xNackTxs k c ok s) := by
    cases ok
    · exact ((hs.emit _).emit _).endContext k
    · exact (hs.emit _).endContext k
  have hack (c : Context) : SenderFrame s (xAckTxs k c ok s) := by
    cases ok
    · exact (hs.emit _).endContext k
    · exact hs.endContext k
  unfold contextTxs
  cases s.context k with
  | none => exact hs
  | some c =>
    simp only
    cases c.step with
    | nackWait => exact hnack c
    | ackWait => exact hack c
    | parse | nack | testInsert | deliver | ack | ackNack | done => exact hs

@[simp] theorem upCount_append (a b : List PortOut) : upCount (a ++ b) = upCount a + upCount b :=
  List.countP_append

@[simp] theorem upCount_rsp (r : Rsp) : upCount [.rsp r] = 0 := rfl
@[simp] theorem upCount_tx (dest : Addr) (bytes : Bytes) : upCount [.tx dest bytes] = 0 := rfl
@[simp] theorem upCount_evt (e : Evt) : upCount [.evt e] = 0 := rfl
@[simp] theorem upCount_up (payload : Bytes) : upCount [.up payload] = 1 := rfl

/-- What only the receiving side and a reset write (R178), and how many payloads have gone up. -/
structure ReceiverFrame (s t : State) : Prop where
  params : t.params = s.params
  cfgGen : t.cfgGen = s.cfgGen
  cfgFault : t.cfgFault = s.cfgFault
  delivered : t.delivered = s.delivered
  rxc : t.rxc = s.rxc
  ups : upCount t.out = upCount s.out

theorem ReceiverFrame.refl (s : State) : ReceiverFrame s s := ⟨rfl, rfl, rfl, rfl, rfl, rfl⟩

theorem afterRsp_receiverFrame (s : State) (r : Rsp) : ReceiverFrame s (s.afterRsp r) :=
  ⟨rfl, rfl, rfl, rfl, rfl, by simp [State.afterRsp]⟩

theorem StartResult.receiverFrame {payload : Bytes} {s t : State} (h : StartResult payload s t) :
    ReceiverFrame s t := by
  cases h with
  | refused e _ => exact { afterRsp_receiverFrame s _ with }
  | tooLong _ _ _ => exact { afterRsp_receiverFrame (sAlloc s) _ with }
  | started _ _ _ => exact { ReceiverFrame.refl s with }

theorem SenderResult.receiverFrame {s t : State} (h : SenderResult s t) : ReceiverFrame s t := by
  cases h with
  | transmitted _ _ => exact { ReceiverFrame.refl s with ups := by simp [sTx] }
  | finished r _ => exact { afterRsp_receiverFrame s r with }
  | _ => exact { ReceiverFrame.refl s with }

theorem senderTxs_receiverFrame (ok : Bool) (s : State) : ReceiverFrame s (senderTxs ok s) := by
  unfold senderTxs sTxs
  split_ifs <;> exact { ReceiverFrame.refl s with }

theorem tTick_receiverFrame (s : State) : ReceiverFrame s (tTick s) := by
  unfold tTick
  split_ifs <;> exact { ReceiverFrame.refl s with }

/-- What the steps of a `SEND` in progress keep (R34, R65). -/
structure RequestFrame (s t : State) : Prop where
  seqCtr : t.seqCtr = s.seqCtr
  seq : t.pr.seq = s.pr.seq
  frame : t.pr.frame = s.pr.frame

theorem RequestFrame.refl (s : State) : RequestFrame s s := ⟨rfl, rfl, rfl⟩

theorem SenderFrame.requestFrame {s t : State} (h : SenderFrame s t) : RequestFrame s t :=
  ⟨h.seqCtr, by rw [h.pr], by rw [h.pr]⟩

theorem SenderResult.requestFrame {s t : State} (h : SenderResult s t) : RequestFrame s t := by
  cases h <;> exact ⟨rfl, rfl, rfl⟩

theorem senderTxs_requestFrame (ok : Bool) (s : State) : RequestFrame s (senderTxs ok s) := by
  unfold senderTxs sTxs
  split_ifs <;> exact ⟨rfl, rfl, rfl⟩

theorem tTick_requestFrame (s : State) : RequestFrame s (tTick s) := by
  unfold tTick
  split_ifs <;> exact ⟨rfl, rfl, rfl⟩

/-- Whether a stimulus is for the receiving side: an arriving message, a step of a receive context or an answer to
one (R178). -/
def forReceiver : Config.Stimulus → Bool
  | .rx _ _ | .run (.context _) | .txs (some (.context _)) _ => true
  | .cmd _ | .txs none _ | .txs (some .sender) _ | .tick | .rst _ | .run .sender => false

/-- A step of the receiving side leaves the sender's registers (R178). -/
theorem StepResult.senderFrame {s t : State} {x : Config.Stimulus} (h : StepResult s x t)
    (hx : forReceiver x = true) : SenderFrame s t := by
  cases h with
  | accepted m peer => exact xAccept_senderFrame m peer s
  | contextAnswered k ok => exact contextTxs_senderFrame k ok s
  | noContext k _ => exact .refl s
  | rejected k c e _ _ _ => exact { xReject_senderFrame k e { s with cur := k } with }
  | parsed k c f i _ _ _ _ => exact { xParse_senderFrame k c f (wireNext f) { s with cur := k } with }
  | contextRan k c _ _ => exact { xStep_senderFrame k c { s with cur := k } with }
  | answered | sendStarted | unawaited | senderAnswered | ticked | wasReset | senderRan => cases hx

/-- Every other step but a reset leaves the delivered-set and the contexts, and delivers nothing (R178). -/
theorem StepResult.receiverFrame {s t : State} {x : Config.Stimulus} (h : StepResult s x t)
    (hx : forReceiver x = false) (hreset : isReset x = false) : ReceiverFrame s t := by
  cases h with
  | answered c r _ => exact afterRsp_receiverFrame s r
  | sendStarted c _ => exact (sStart_result _ _ s).receiverFrame
  | unawaited ok => exact .refl s
  | senderAnswered ok => exact senderTxs_receiverFrame ok s
  | ticked => exact tTick_receiverFrame s
  | senderRan => exact (senderStep_result s).receiverFrame
  | wasReset p => cases hreset
  | accepted | contextAnswered | noContext | rejected | parsed | contextRan => cases hx

end Sys2Proof.Machine

/-! ### Deliveries and insertions into the delivered-set are one for one -/

namespace Sys2Proof.Machine

open Sys2Proof

/-- Writing a context that is there exchanges what the old one counts for what the new one counts. -/
theorem countP_insertContext {p : Nat × Context → Bool} {k : Nat} {c d : Context} {l : List (Nat × Context)}
    (hl : Rising l) (hd : lookupContext k l = some d) :
    (insertContext k c l).countP p + (if p (k, d) then 1 else 0) = l.countP p + if p (k, c) then 1 else 0 := by
  induction l with
  | nil => simp [lookupContext] at hd
  | cons e l ih =>
    obtain ⟨j, x⟩ := e
    have hl' := hl
    simp only [Rising, List.map_cons, List.pairwise_cons] at hl'
    obtain ⟨hj, htail⟩ := hl'
    by_cases hjk : j = k
    · obtain rfl : x = d := by simpa [lookupContext, hjk] using hd
      simp only [insertContext, hjk, lt_irrefl, if_false, if_true, List.countP_cons]
      omega
    · have hd' : lookupContext k l = some d := by simpa [lookupContext, hjk] using hd
      have hlt : ¬ k < j := by
        have := hj k (List.mem_map_of_mem (f := Prod.fst) (lookupContext_mem hd'))
        omega
      simp only [insertContext, hlt, Ne.symm hjk, if_false, List.countP_cons]
      have := ih htail hd'
      omega

/-- A new context adds what it counts. -/
theorem countP_insertContext_new {p : Nat × Context → Bool} {k : Nat} {c : Context} {l : List (Nat × Context)}
    (hk : lookupContext k l = none) : (insertContext k c l).countP p = l.countP p + if p (k, c) then 1 else 0 := by
  induction l with
  | nil => simp [insertContext]
  | cons e l ih =>
    obtain ⟨j, x⟩ := e
    have hjk : j ≠ k := by rintro rfl; simp [lookupContext] at hk
    have hk' : lookupContext k l = none := by simpa [lookupContext, hjk] using hk
    by_cases hlt : k < j
    · simp only [insertContext, hlt, if_true, List.countP_cons]
    · simp only [insertContext, hlt, Ne.symm hjk, if_false, List.countP_cons, ih hk']
      omega

/-- Removing a context takes what it counts. -/
theorem countP_eraseContext {p : Nat × Context → Bool} {k : Nat} {d : Context} {l : List (Nat × Context)}
    (hd : lookupContext k l = some d) : (eraseContext k l).countP p + (if p (k, d) then 1 else 0) = l.countP p := by
  induction l with
  | nil => simp [lookupContext] at hd
  | cons e l ih =>
    obtain ⟨j, x⟩ := e
    by_cases hjk : j = k
    · obtain rfl : x = d := by simpa [lookupContext, hjk] using hd
      simp [eraseContext, hjk, List.countP_cons]
    · have hd' : lookupContext k l = some d := by simpa [lookupContext, hjk] using hd
      have := ih hd'
      simp only [eraseContext, hjk, if_false, List.countP_cons]
      omega

/-- A list without repetitions counts one more when the predicate takes in one more of its elements. -/
theorem countP_or_eq {α : Type} [DecidableEq α] {p : α → Bool} {a : α} {l : List α} (hl : l.Nodup) (ha : a ∈ l)
    (hp : p a = false) : l.countP (fun x => p x || x == a) = l.countP p + 1 := by
  induction l with
  | nil => simp at ha
  | cons x l ih =>
    obtain ⟨hx, hl⟩ := List.nodup_cons.1 hl
    by_cases hxa : x = a
    · subst hxa
      have hrest : l.countP (fun y => p y || y == x) = l.countP p :=
        List.countP_congr fun y hy => by simp [show y ≠ x by rintro rfl; exact hx hy]
      simp [hrest, hp]
    · have ha' : a ∈ l := by simpa [Ne.symm hxa] using ha
      simp [List.countP_cons, ih hl ha', hxa]
      omega

/-- How many of one context are about to deliver. -/
def Context.delivers (c : Context) : Nat := if c.step = .deliver then 1 else 0

theorem Context.delivers_of_ne {c : Context} (h : c.step ≠ .deliver) : c.delivers = 0 := if_neg h

theorem State.deliverCount_putContext {s : State} {k : Nat} {c d : Context} (hr : s.ContextsRising)
    (hd : s.context k = some d) (hc : c.step ≠ .done) :
    (s.putContext k c).deliverCount + d.delivers = s.deliverCount + c.delivers := by
  have := countP_insertContext (p := fun e => e.2.step == .deliver) (c := c) hr hd
  simpa [State.deliverCount, Context.delivers, hc] using this

theorem State.deliverCount_endContext {s : State} {k : Nat} {d : Context} (hd : s.context k = some d) :
    (s.endContext k).deliverCount + d.delivers = s.deliverCount := by
  have := countP_eraseContext (p := fun e => e.2.step == .deliver) hd
  simpa [State.deliverCount, Context.delivers] using this

theorem State.deliverCount_createContext {s : State} (m : Bytes) (peer : Addr) (hr : s.ContextsRising) :
    (s.createContext m peer).deliverCount = s.deliverCount := by
  simp [State.deliverCount, countP_insertContext_new (lookupContext_fresh hr), newContext]

/-- Marking changes the count of sequence numbers iff the number is new. -/
theorem State.deliveredCount_markDelivered (s : State) (q : Byte) :
    (s.markDelivered q).deliveredCount = s.deliveredCount + if s.isDelivered q then 0 else 1 := by
  have hbit (i : Nat) (hi : i ∈ List.range 256) : (s.delivered ||| BitVec.twoPow 256 q.toNat).getLsbD i =
      (s.delivered.getLsbD i || i == q.toNat) := by
    have hi : i < 256 := List.mem_range.1 hi
    simp [hi, beq_eq_decide]
  have hmem : q.toNat ∈ List.range 256 := List.mem_range.2 q.isLt
  have hnodup : (List.range 256).Nodup := List.nodup_range
  rw [State.deliveredCount, State.deliveredCount, State.isDelivered, State.markDelivered_delivered]
  rw [List.countP_congr fun i hi => by rw [hbit i hi]]
  generalize List.range 256 = l at hmem hnodup
  split_ifs with hq
  · refine List.countP_congr fun i _ => ?_
    by_cases hiq : i = q.toNat <;> simp [hiq, hq]
  · exact countP_or_eq hnodup hmem (by simpa using hq)

/-- `t` has made, or is about to make, as many deliveries more than `s` as its delivered-set has grown (R174 to
R176). -/
def DeliveriesBalanced (s t : State) : Prop :=
  upCount t.out + t.deliverCount + s.deliveredCount = upCount s.out + s.deliverCount + t.deliveredCount

theorem ReceiverFrame.deliveriesBalanced {s t : State} (h : ReceiverFrame s t) : DeliveriesBalanced s t := by
  simp [DeliveriesBalanced, State.deliverCount, State.deliveredCount, h.ups, h.rxc, h.delivered]

/-- Moving a context on keeps the balance when what was done before makes up for the exchange of its step. -/
theorem deliveriesBalanced_putContext_of_count {s t : State} {k : Nat} {c d : Context} (hr : t.ContextsRising)
    (hd : t.context k = some d) (hc : c.step ≠ .done)
    (hcount : upCount t.out + t.deliverCount + c.delivers + s.deliveredCount =
      upCount s.out + s.deliverCount + d.delivers + t.deliveredCount) : DeliveriesBalanced s (t.putContext k c) := by
  have hput := State.deliverCount_putContext hr hd hc
  have hset : (t.putContext k c).deliveredCount = t.deliveredCount := by
    rw [State.deliveredCount, State.putContext_delivered, State.deliveredCount]
  rw [DeliveriesBalanced, State.putContext_out, hset]
  omega

/-- Moving a context on, with neither the step before nor the one after about to deliver, keeps the balance. -/
theorem deliveriesBalanced_putContext {s t : State} {k : Nat} {c d : Context} (h : ReceiverFrame s t)
    (hr : s.ContextsRising) (hd : s.context k = some d) (hstep : d.step ≠ .deliver) (hc : c.step ≠ .done)
    (hc' : c.step ≠ .deliver) : DeliveriesBalanced s (t.putContext k c) := by
  have hr' : t.ContextsRising := by rwa [State.ContextsRising, h.rxc]
  have hd' : t.context k = some d := by rwa [State.context, h.rxc]
  refine deliveriesBalanced_putContext_of_count hr' hd' hc ?_
  rw [Context.delivers_of_ne hstep, Context.delivers_of_ne hc']
  exact h.deliveriesBalanced

/-- Ending a context that is not about to deliver keeps the balance. -/
theorem deliveriesBalanced_endContext {s t : State} {k : Nat} {d : Context} (h : ReceiverFrame s t)
    (hd : s.context k = some d) (hstep : d.step ≠ .deliver) : DeliveriesBalanced s (t.endContext k) := by
  have hd' : t.context k = some d := by rwa [State.context, h.rxc]
  have hend := State.deliverCount_endContext hd'
  have hbal := h.deliveriesBalanced
  rw [Context.delivers_of_ne hstep] at hend
  simp only [DeliveriesBalanced, State.endContext_out, State.deliveredCount, State.endContext_delivered] at hbal ⊢
  omega

theorem ReceiverFrame.emit {s t : State} (h : ReceiverFrame s t) {o : PortOut} (ho : upCount [o] = 0) :
    ReceiverFrame s (t.emit o) :=
  { h with ups := by simp [ho, h.ups] }

theorem storeReply_receiverFrame (s : State) (q : Byte) (r : SlotResult) : ReceiverFrame s (s.storeReply q r) :=
  ⟨by simp, by simp, by simp, by simp, by simp, by simp⟩

theorem xAccept_deliveriesBalanced {s : State} (hr : s.ContextsRising) (m : Bytes) (peer : Addr) :
    DeliveriesBalanced s (xAccept m peer s) := by
  unfold xAccept
  split_ifs
  · simp [DeliveriesBalanced, State.deliverCount_createContext m peer hr, State.deliveredCount]
  · exact (ReceiverFrame.refl s).deliveriesBalanced

theorem xReject_deliveriesBalanced {s : State} {k : Nat} {c : Context} (hc : s.context k = some c)
    (hp : c.step = .parse) (e : WireReject) : DeliveriesBalanced s (xReject k e s) :=
  deliveriesBalanced_endContext ((ReceiverFrame.refl s).emit (by simp)) hc (by simp [hp])

/-- The dispatch of `X.PARSE` leads to none of the steps that come after a reply or an insertion (R172). -/
theorem wireNext_cases (f : Fields) (fr : Frame) :
    (wireNext f fr = .testInsert ∧ f.type = 0 ∧ fr.matchFlag = true) ∨
      (wireNext f fr = .nack ∧ f.type = 0 ∧ fr.matchFlag = false) ∨ (wireNext f fr = .ackNack ∧ f.type ≠ 0) := by
  unfold wireNext
  split_ifs with hty
  · cases hm : fr.matchFlag
    · exact .inr (.inl ⟨by simp [hm], hty, rfl⟩)
    · exact .inl ⟨by simp [hm], hty, rfl⟩
  · exact .inr (.inr ⟨rfl, hty⟩)

theorem xParse_deliveriesBalanced {s : State} {k : Nat} {c : Context} (hr : s.ContextsRising)
    (hc : s.context k = some c) (hp : c.step = .parse) (f : Fields) :
    DeliveriesBalanced s (xParse k c f (wireNext f) s) := by
  have hd : c.step ≠ .deliver := by simp [hp]
  unfold xParse
  split_ifs
  · exact deliveriesBalanced_endContext ((ReceiverFrame.refl s).emit rfl) hc hd
  · have hnext : wireNext f (checkFrame s.cfgGen.bits f) ≠ .done ∧
        wireNext f (checkFrame s.cfgGen.bits f) ≠ .deliver := by
      rcases wireNext_cases f (checkFrame s.cfgGen.bits f) with ⟨h, _⟩ | ⟨h, _⟩ | ⟨h, _⟩ <;> simp [h]
    exact deliveriesBalanced_putContext (.refl s) hr hc hd hnext.1 hnext.2

/-- The test-and-insert: a new sequence number is one more in the delivered-set and one more delivery to come
(R174). -/
theorem xDataOk_deliveriesBalanced {s : State} {k : Nat} {c : Context} (hr : s.ContextsRising)
    (hc : s.context k = some c) (hstep : c.step = .testInsert) : DeliveriesBalanced s (xDataOk k c s) := by
  have hmark : (s.markDelivered c.frame.fields.seq).deliverCount = s.deliverCount := rfl
  have hold : c.delivers = 0 := Context.delivers_of_ne (by simp [hstep])
  refine deliveriesBalanced_putContext_of_count (t := s.markDelivered c.frame.fields.seq) hr hc ?_ ?_
  · split_ifs <;> simp
  · rw [hmark, State.markDelivered_out, State.deliveredCount_markDelivered, hold]
    cases s.isDelivered c.frame.fields.seq with
    | false => simp [Context.delivers]; omega
    | true => simp [Context.delivers]

/-- A delivery made is no longer to come (R175). -/
theorem xDeliver_deliveriesBalanced {s : State} {k : Nat} {c : Context} (hr : s.ContextsRising)
    (hc : s.context k = some c) (hstep : c.step = .deliver) : DeliveriesBalanced s (xDeliver k c s) := by
  have hcount : (s.emit (.up c.frame.fields.payload)).deliverCount = s.deliverCount := rfl
  have hset : (s.emit (.up c.frame.fields.payload)).deliveredCount = s.deliveredCount := rfl
  refine deliveriesBalanced_putContext_of_count (t := s.emit (.up c.frame.fields.payload)) hr hc (by simp) ?_
  simp only [hcount, hset, State.emit_out, upCount_append, upCount_up, Context.delivers, hstep, if_true,
    reduceCtorEq, if_false]
  omega

theorem xStep_deliveriesBalanced {s : State} {k : Nat} {c : Context} (hr : s.ContextsRising)
    (hc : s.context k = some c) : DeliveriesBalanced s (xStep k c s) := by
  have hs := ReceiverFrame.refl s
  unfold xStep
  cases hstep : c.step with
  | nack => exact deliveriesBalanced_putContext (hs.emit rfl) hr hc (by simp [hstep]) (by simp) (by simp)
  | testInsert => exact xDataOk_deliveriesBalanced hr hc hstep
  | deliver => exact xDeliver_deliveriesBalanced hr hc hstep
  | ack => exact deliveriesBalanced_putContext (hs.emit rfl) hr hc (by simp [hstep]) (by simp) (by simp)
  | ackNack => exact deliveriesBalanced_endContext (storeReply_receiverFrame s _ _) hc (by simp [hstep])
  | parse | nackWait | ackWait | done => exact hs.deliveriesBalanced

theorem contextTxs_deliveriesBalanced (k : Nat) (ok : Bool) (s : State) :
    DeliveriesBalanced s (contextTxs k ok s) := by
  have hs := ReceiverFrame.refl s
  unfold contextTxs
  cases hc : s.context k with
  | none => exact hs.deliveriesBalanced
  | some c =>
    simp only
    cases hstep : c.step with
    | nackWait =>
      refine deliveriesBalanced_endContext ?_ hc (by simp [hstep])
      cases ok
      · exact (hs.emit rfl).emit rfl
      · exact hs.emit rfl
    | ackWait =>
      refine deliveriesBalanced_endContext ?_ hc (by simp [hstep])
      cases ok
      · exact hs.emit rfl
      · exact hs
    | parse | nack | testInsert | deliver | ack | ackNack | done => exact hs.deliveriesBalanced

/-- The receiving side delivers what it inserts, the other steps do neither. -/
theorem StepResult.deliveriesBalanced {s t : State} {x : Config.Stimulus} (h : StepResult s x t)
    (hr : s.ContextsRising) (hreset : isReset x = false) : DeliveriesBalanced s t := by
  cases hx : forReceiver x with
  | false => exact (h.receiverFrame hx hreset).deliveriesBalanced
  | true =>
    cases h with
    | accepted m peer => exact xAccept_deliveriesBalanced hr m peer
    | contextAnswered k ok => exact contextTxs_deliveriesBalanced k ok s
    | noContext k _ => exact (ReceiverFrame.refl s).deliveriesBalanced
    | rejected k c e hc hp _ => exact xReject_deliveriesBalanced (s := { s with cur := k }) hc hp e
    | parsed k c f i hc hp _ _ => exact xParse_deliveriesBalanced (s := { s with cur := k }) hr hc hp f
    | contextRan k c hc _ => exact xStep_deliveriesBalanced (s := { s with cur := k }) hr hc
    | answered | sendStarted | unawaited | senderAnswered | ticked | wasReset | senderRan => cases hx

/-- Settles O55: `StepResult.deliveriesBalanced`, read before the stimulus is taken off. -/
theorem deliveriesMatchInsertions : Obligations.DeliveriesMatchInsertions := by
  intro s t hr hstep hreset
  have hr' : s.popStimulus.ContextsRising := by simpa [State.ContextsRising] using hr
  have := (step_result hstep).deliveriesBalanced hr' hreset
  simpa [DeliveriesBalanced, State.deliverCount, State.deliveredCount] using this

end Sys2Proof.Machine

/-! ### The invariant of the block -/

namespace Sys2Proof.Machine

open Sys2Proof

/-- A context stays in a legal form while the generator stays and the delivered-set only grows. -/
theorem ContextOK.mono {s t : State} {c : Context} (h : ContextOK s c) (hgen : t.cfgGen = s.cfgGen)
    (hdel : ∀ b, s.isDelivered b = true → t.isDelivered b = true) : ContextOK t c :=
  { h with
    parsed := fun hp => hgen ▸ h.parsed hp
    inserted := fun hc => hdel _ (h.inserted hc) }

theorem ContextOK.emit {s : State} {c : Context} (h : ContextOK s c) (o : PortOut) : ContextOK (s.emit o) c :=
  h.mono rfl fun _ hb => hb

/-- The invariant reads the registers alone, not the model's own fields. -/
theorem BlockInv.of_registers {s : State} (h : BlockInv s) (cur : Nat) (sched : List Config.Stimulus)
    (out : List PortOut) (free : Nat) :
    BlockInv { s with cur := cur, sched := sched, out := out, free := free } :=
  { h with contextsOK := fun k c hc => (h.contextsOK k c hc).mono rfl fun _ hb => hb }

theorem BlockInv.popStimulus {s : State} (h : BlockInv s) : BlockInv s.popStimulus := by
  rw [s.popStimulus_eq]
  exact h.of_registers _ _ _ _

theorem BlockInv.emit {s : State} (h : BlockInv s) (o : PortOut) : BlockInv (s.emit o) := h.of_registers _ _ _ _

theorem BlockInv.afterRsp {s : State} (h : BlockInv s) (r : Rsp) : BlockInv (s.afterRsp r) :=
  h.of_registers _ _ _ _

/-! The receiving side -/

theorem BlockInv.endContext {s : State} (h : BlockInv s) (k : Nat) : BlockInv (s.endContext k) := by
  have hsub (j : Nat) (c : Context) (hc : (s.endContext k).context j = some c) : s.context j = some c := by
    by_cases hjk : j = k
    · rw [hjk, s.context_endContext_self k h.rising] at hc
      cases hc
    · rwa [s.context_endContext_ne hjk] at hc
  exact
    { h with
      faulted := fun hf => by
        obtain ⟨hphase, hvalid, hdel, hctr, hparse⟩ := h.faulted hf
        exact ⟨hphase, hvalid, hdel, hctr, fun j c hc => hparse j c (hsub j c hc)⟩
      rising := State.rising_endContext k h.rising
      bounded := fun n hn => (length_eraseContext_le k s.rxc).trans (h.bounded n hn)
      contextsOK := fun j c hc => (h.contextsOK j c (hsub j c hc)).mono rfl fun _ hb => hb }

/-- Moving a context on to a legal form, in a block without `CFG_FAULT`. -/
theorem BlockInv.putContext {s : State} {k : Nat} {c d : Context} (h : BlockInv s) (hd : s.context k = some d)
    (hf : s.cfgFault = false) (hc : ContextOK s c) : BlockInv (s.putContext k c) := by
  have hrxc : s.putContext k c = { s with rxc := insertContext k c s.rxc } := if_neg hc.live
  have hlen : (insertContext k c s.rxc).length = s.rxc.length := length_insertContext_of_some h.rising hd
  rw [hrxc]
  exact
    { h with
      faulted := fun hf' => absurd (hf.symm.trans hf') (by simp)
      rising := rising_insertContext k c h.rising
      bounded := fun n hn => hlen.trans_le (h.bounded n hn)
      contextsOK := fun j e he => by
        by_cases hjk : j = k
        · rw [hjk, State.context, lookupContext_insertContext_self] at he
          obtain rfl : c = e := Option.some.inj he
          exact hc.mono rfl fun _ hb => hb
        · rw [State.context, lookupContext_insertContext_ne hjk] at he
          exact (h.contextsOK j e he).mono rfl fun _ hb => hb }

/-- A new context is in a legal form: `X.PARSE` is still to come (R170). -/
theorem contextOK_newContext (s : State) (m : Bytes) (peer : Addr) (n : Nat) :
    ContextOK s (newContext m peer n) := by
  constructor <;> simp [newContext]

theorem BlockInv.createContext {s : State} (h : BlockInv s) (m : Bytes) (peer : Addr)
    (hroom : ∀ n, s.params.rxContexts = some n → s.rxc.length + 1 ≤ n) : BlockInv (s.createContext m peer) := by
  have hcases (j : Nat) (c : Context) (hc : (s.createContext m peer).context j = some c) :
      c = newContext m peer s.free ∨ s.context j = some c := by
    rw [State.context, State.createContext_rxc] at hc
    by_cases hj : j = freshContext 0 s.rxc
    · rw [hj, lookupContext_insertContext_self] at hc
      exact .inl (Option.some.inj hc).symm
    · rw [lookupContext_insertContext_ne hj] at hc
      exact .inr hc
  exact
    { h with
      faulted := fun hf => by
        obtain ⟨hphase, hvalid, hdel, hctr, hparse⟩ := h.faulted hf
        refine ⟨hphase, hvalid, hdel, hctr, fun j c hc => ?_⟩
        obtain rfl | hc := hcases j c hc
        · rfl
        · exact hparse j c hc
      rising := State.rising_createContext m peer h.rising
      bounded := fun n hn => (length_insertContext_le _ _ _).trans (hroom n hn)
      contextsOK := fun j c hc => by
        obtain rfl | hc := hcases j c hc
        · exact contextOK_newContext _ m peer _
        · exact (h.contextsOK j c hc).mono rfl fun _ hb => hb }

theorem BlockInv.markDelivered {s : State} (h : BlockInv s) (hf : s.cfgFault = false) (q : Byte) :
    BlockInv (s.markDelivered q) :=
  { h with
    faulted := fun hf' => absurd (hf.symm.trans hf') (by simp)
    contextsOK := fun k c hc => (h.contextsOK k c hc).mono rfl fun b hb => by simp [hb] }

/-- Storing a reply sets the signal together with a result that can be read (R163(a), R177). -/
theorem BlockInv.storeReply {s : State} (h : BlockInv s) (q : Byte) {r : SlotResult}
    (hr : r = .acked ∨ r = .nacked) : BlockInv (s.storeReply q r) := by
  unfold State.storeReply
  split_ifs
  · exact
      { h with
        replyStored := fun _ _ => hr
        contextsOK := fun k c hc => (h.contextsOK k c hc).mono rfl fun _ hb => hb }
  · exact h

theorem BlockInv.xAccept {s : State} (h : BlockInv s) (m : Bytes) (peer : Addr) : BlockInv (xAccept m peer s) := by
  unfold Machine.xAccept
  split_ifs with hroom
  · exact h.createContext m peer (within_iff.1 hroom)
  · exact h

theorem BlockInv.xReject {s : State} (h : BlockInv s) (k : Nat) (e : WireReject) : BlockInv (xReject k e s) :=
  (h.emit _).endContext k

/-- The types that select a wire operation (R80). -/
theorem type_of_selectWire {f : Fields} {i : Instr} (h : selectWire f = .ok i) :
    f.type = 0 ∨ f.type = 1 ∨ f.type = 2 := by
  unfold selectWire at h
  split_ifs at h with h0 h1 h2
  · exact .inl h0
  · exact .inr (.inl h1)
  · exact .inr (.inr h2)

/-- `X.PARSE` leaves its context in a legal form (R171, R172). -/
theorem contextOK_dispatched {s : State} {c : Context} {f : Fields} {fr : Frame} {i : Instr}
    (hf : parseFields c.bytes = .ok f) (hi : selectWire f = .ok i) (hfr : fr = checkFrame s.cfgGen.bits f) :
    ContextOK s { c with frame := fr, step := wireNext f fr } := by
  have htype := type_of_selectWire hi
  have hfields : fr.fields = f := hfr ▸ rfl
  obtain ⟨hstep, hty, hm⟩ | ⟨hstep, hty, hm⟩ | ⟨hstep, hty⟩ := wireNext_cases f fr
  · constructor <;> simp [hstep, hfields, hty, hm, hf, ← hfr]
  · constructor <;> simp [hstep, hfields, hty, hm, hf, ← hfr]
  · constructor <;> simp [hstep, hfields, hf, ← hfr]
    exact htype.resolve_left hty

theorem BlockInv.xParse {s : State} {k : Nat} {c : Context} {f : Fields} {i : Instr} (h : BlockInv s)
    (hc : s.context k = some c) (hf : parseFields c.bytes = .ok f) (hi : selectWire f = .ok i) :
    BlockInv (xParse k c f (wireNext f) s) := by
  unfold Machine.xParse
  split_ifs with hfault
  · exact (h.emit _).endContext k
  · exact h.putContext hc (by simpa using hfault) (contextOK_dispatched hf hi rfl)

/-- While `CFG_FAULT = 1` no context gets beyond `Parse` (R42(h)). -/
theorem BlockInv.cfgFault_of_parsed {s : State} {k : Nat} {c : Context} (h : BlockInv s)
    (hc : s.context k = some c) (hp : c.step ≠ .parse) : s.cfgFault = false := by
  by_contra hf
  obtain ⟨_, _, _, _, hparse⟩ := h.faulted (by simpa using hf)
  exact hp (hparse k c hc)

/-- `X.DATA_OK` leaves its context in a legal form: its sequence number is in the delivered-set (R174). -/
theorem contextOK_inserted {s : State} {c : Context} (h : ContextOK s c) (hstep : c.step = .testInsert) :
    ContextOK (s.markDelivered c.frame.fields.seq) { c with
      isNew := !s.isDelivered c.frame.fields.seq
      step := if !s.isDelivered c.frame.fields.seq then .deliver else .ack } := by
  have hparsed := h.parsed (by simp [hstep])
  have hmatched := h.dataMatched (.inl hstep)
  cases s.isDelivered c.frame.fields.seq <;>
    exact
      { live := by simp
        parsed := fun _ => hparsed
        nacking := by simp
        dataMatched := fun _ => hmatched
        replying := by simp
        inserted := by simp
        fresh := by simp }

/-- `X.NACK` leaves its context in a legal form (R173). -/
theorem ContextOK.of_nacking {s : State} {c : Context} (h : ContextOK s c) (hstep : c.step = .nack) :
    ContextOK s { c with step := .nackWait } where
  live := by simp
  parsed := fun _ => h.parsed (by simp [hstep])
  nacking := fun _ => h.nacking (.inl hstep)
  dataMatched := by simp
  replying := by simp
  inserted := by simp
  fresh := by simp

/-- `X.DELIVER` and `X.ACK` leave their context in a legal form (R175, R176). -/
theorem ContextOK.of_delivering {s : State} {c : Context} {st : CtxStep} (h : ContextOK s c)
    (hstep : c.step = .deliver ∨ c.step = .ack) (hst : st = .ack ∨ st = .ackWait) :
    ContextOK s { c with step := st } where
  live := by rintro rfl; simp at hst
  parsed := fun _ => h.parsed fun hp => by simp [hp] at hstep
  nacking := by rintro (rfl | rfl) <;> simp at hst
  dataMatched := fun _ => h.dataMatched (.inr (hstep.imp_right .inl))
  replying := by rintro rfl; simp at hst
  inserted := fun _ => h.inserted (hstep.imp_right .inl)
  fresh := by rintro rfl; simp at hst

theorem BlockInv.xStep {s : State} {k : Nat} {c : Context} (h : BlockInv s) (hc : s.context k = some c)
    (hp : c.step ≠ .parse) : BlockInv (xStep k c s) := by
  have hf := h.cfgFault_of_parsed hc hp
  have hok := h.contextsOK k c hc
  unfold Machine.xStep
  cases hstep : c.step with
  | nack => exact (h.emit _).putContext hc hf ((hok.of_nacking hstep).emit _)
  | testInsert => exact (h.markDelivered hf _).putContext hc hf (contextOK_inserted hok hstep)
  | deliver => exact (h.emit _).putContext hc hf ((hok.of_delivering (.inl hstep) (.inl rfl)).emit _)
  | ack => exact (h.emit _).putContext hc hf ((hok.of_delivering (.inr hstep) (.inr rfl)).emit _)
  | ackNack => exact (h.storeReply _ (by split_ifs <;> simp)).endContext k
  | parse | nackWait | ackWait | done => exact h

theorem BlockInv.contextTxs {s : State} (h : BlockInv s) (k : Nat) (ok : Bool) : BlockInv (contextTxs k ok s) := by
  unfold Machine.contextTxs
  cases s.context k with
  | none => exact h
  | some c =>
    simp only
    cases c.step with
    | nackWait =>
      refine BlockInv.endContext ?_ k
      cases ok
      · exact (h.emit _).emit _
      · exact h.emit _
    | ackWait =>
      refine BlockInv.endContext ?_ k
      cases ok
      · exact h.emit _
      · exact h
    | parse | nack | testInsert | deliver | ack | ackNack | done => exact h

/-! The sending side -/

/-- A step that writes no more than the sender's registers leaves the contexts in their legal forms. -/
theorem BlockInv.contextsOK_of_receiverFrame {s t : State} (h : BlockInv s) (ht : ReceiverFrame s t) :
    ∀ k c, t.context k = some c → ContextOK t c := by
  intro k c hc
  rw [State.context, ht.rxc] at hc
  refine (h.contextsOK k c hc).mono ht.cfgGen fun b hb => ?_
  rwa [State.isDelivered, ht.delivered]

/-- While a `SEND` is in progress `CFG_FAULT = 0` (R42(h)). -/
theorem BlockInv.cfgFault_of_busy {s : State} (h : BlockInv s) (hp : s.phase ≠ .idle) : s.cfgFault = false := by
  by_contra hf
  exact hp (h.faulted (by simpa using hf)).1

theorem BlockInv.startResult {payload : Bytes} {s t : State} (h : BlockInv s) (hst : StartResult payload s t) :
    BlockInv t := by
  have hctx := h.contextsOK_of_receiverFrame hst.receiverFrame
  cases hst with
  | refused e _ => exact h.afterRsp _
  | tooLong hphase hfault _ =>
    have hvalid : s.ws.valid = false := by
      have := h.slotIffBusy
      simpa [hphase] using this
    exact
      { h with
        slotSeq := fun hv => absurd (hvalid.symm.trans hv) (by simp)
        frameBuilt := fun hp => absurd hphase hp
        faulted := fun hf => absurd (hfault.symm.trans hf) (by simp)
        contextsOK := hctx }
  | started hphase hfault hlen =>
    exact
      { h with
        slotIffBusy := by simp [sRegister]
        slotSeq := fun _ => rfl
        retriesLeft := fun _ _ => by simp [sRegister]
        awaitsInSending := fun _ _ => rfl
        replyStored := fun _ hs => absurd hs (by simp [sRegister])
        frameBuilt := fun _ => ⟨payload, hlen, rfl⟩
        outcomeAcked := fun hp => absurd hp (by simp [sRegister])
        outcomeFailed := fun hp => absurd hp (by simp [sRegister])
        faulted := fun hf => absurd (hfault.symm.trans hf) (by simp)
        contextsOK := hctx }

/-- What is left to show when a step leads from a `SEND` in progress to the same `SEND` in progress. -/
theorem BlockInv.of_busy {s t : State} (h : BlockInv s) (hs : s.phase ≠ .idle) (ht : t.phase ≠ .idle)
    (hrec : ReceiverFrame s t) (hreq : RequestFrame s t) (hvalid : t.ws.valid = s.ws.valid)
    (hseq : t.ws.seq = s.ws.seq)
    (retriesLeft : t.phase = .sending → t.pr.txPending = false → t.pr.retriesUsed.toNat < 3)
    (awaitsInSending : t.phase ≠ .sending → t.pr.txPending = false)
    (replyStored : t.phase = .sending ∨ t.phase = .awaitingAck ∨ t.phase = .pausing →
      t.ws.signal = true → t.ws.result = .acked ∨ t.ws.result = .nacked)
    (timerBound : t.timer ≤ ackTimeoutTicks s.params)
    (outcomeAcked : t.phase = .acked → t.pr.outcome = .success)
    (outcomeFailed : t.phase = .failed →
      t.pr.outcome = .sendError ∨ (t.pr.outcome = .exhausted ∧ t.pr.retriesUsed.toNat = 3)) : BlockInv t where
  genLoaded := by rw [hrec.cfgGen, hrec.params, h.genLoaded]
  faultComputed := by rw [hrec.cfgFault, hrec.params, h.faultComputed]
  slotIffBusy := by simp [hvalid, h.slotIffBusy, hs, ht]
  slotSeq := by rw [hvalid, hseq, hreq.seq]; exact h.slotSeq
  retriesLeft := retriesLeft
  awaitsInSending := fun _ => awaitsInSending
  replyStored := replyStored
  timerBound := by rwa [hrec.params]
  frameBuilt := fun _ => by rw [hreq.frame, hreq.seq, hrec.cfgGen]; exact h.frameBuilt hs
  outcomeAcked := outcomeAcked
  outcomeFailed := outcomeFailed
  faulted := fun hf => by rw [hrec.cfgFault, h.cfgFault_of_busy hs] at hf; cases hf
  rising := by rw [State.ContextsRising, hrec.rxc]; exact h.rising
  bounded := by rw [hrec.params, hrec.rxc]; exact h.bounded
  contextsOK := h.contextsOK_of_receiverFrame hrec

/-- `S.FINISH` removes the slot and returns to `Idle` together (R161). -/
theorem BlockInv.toIdle {s : State} (h : BlockInv s) (hs : s.phase ≠ .idle) :
    BlockInv { s with ws := { s.ws with valid := false }, phase := .idle } :=
  { h with
    slotIffBusy := by simp
    slotSeq := nofun
    retriesLeft := nofun
    awaitsInSending := fun hp => absurd rfl hp
    replyStored := by simp
    frameBuilt := fun hp => absurd rfl hp
    outcomeAcked := nofun
    outcomeFailed := nofun
    faulted := fun hf => absurd ((h.cfgFault_of_busy hs).symm.trans hf) (by simp)
    contextsOK := fun k c hc => (h.contextsOK k c hc).mono rfl fun _ hb => hb }

theorem retryPauseTicks_le (p : Config.Params) : retryPauseTicks p ≤ ackTimeoutTicks p := by
  unfold retryPauseTicks ackTimeoutTicks
  omega

theorem BlockInv.senderResult {s t : State} (h : BlockInv s) (hst : SenderResult s t) : BlockInv t := by
  have hrec := hst.receiverFrame
  have hreq := hst.requestFrame
  cases hst with
  | waited => exact h
  | transmitted hphase _ =>
    have hbusy : s.phase ≠ .idle := by simp [hphase]
    exact h.of_busy hbusy hbusy hrec hreq rfl rfl
      (retriesLeft := nofun)
      (awaitsInSending := fun hp => absurd hphase hp)
      (replyStored := h.replyStored)
      (timerBound := h.timerBound)
      (outcomeAcked := fun hp => by cases hphase.symm.trans hp)
      (outcomeFailed := fun hp => by cases hphase.symm.trans hp)
  | wokeAcked hphase _ _ =>
    exact h.of_busy (by simp [hphase]) (by simp) hrec hreq rfl rfl
      (retriesLeft := nofun)
      (awaitsInSending := fun _ => h.awaitsInSending (by simp [hphase]) (by simp [hphase]))
      (replyStored := by simp)
      (timerBound := h.timerBound)
      (outcomeAcked := fun _ => rfl)
      (outcomeFailed := nofun)
  | wokeNacked hphase _ _ =>
    exact h.of_busy (by simp [hphase]) (by simp) hrec hreq rfl rfl
      (retriesLeft := nofun)
      (awaitsInSending := fun _ => h.awaitsInSending (by simp [hphase]) (by simp [hphase]))
      (replyStored := fun _ => h.replyStored (.inr (.inl hphase)))
      (timerBound := retryPauseTicks_le s.params)
      (outcomeAcked := nofun)
      (outcomeFailed := nofun)
  | timedOut hphase hsignal _ =>
    exact h.of_busy (by simp [hphase]) (by simp [sTimeout]) hrec hreq rfl rfl
      (retriesLeft := nofun)
      (awaitsInSending := fun _ => h.awaitsInSending (by simp [hphase]) (by simp [hphase]))
      (replyStored := fun _ hs => by cases hsignal.symm.trans hs)
      (timerBound := retryPauseTicks_le s.params)
      (outcomeAcked := nofun)
      (outcomeFailed := nofun)
  | pauseEnded hphase _ hretries =>
    exact h.of_busy (by simp [hphase]) (by simp) hrec hreq rfl rfl
      (retriesLeft := fun _ _ => hretries)
      (awaitsInSending := fun hp => absurd rfl hp)
      (replyStored := fun _ hs => h.replyStored (.inr (.inr hphase)) (by simp_all))
      (timerBound := h.timerBound)
      (outcomeAcked := nofun)
      (outcomeFailed := nofun)
  | exhausted hphase _ hretries =>
    exact h.of_busy (by simp [hphase]) (by simp) hrec hreq rfl rfl
      (retriesLeft := nofun)
      (awaitsInSending := fun _ => h.awaitsInSending (by simp [hphase]) (by simp [hphase]))
      (replyStored := by simp)
      (timerBound := h.timerBound)
      (outcomeAcked := nofun)
      (outcomeFailed := fun _ => .inr ⟨rfl, hretries⟩)
  | finished r hphase =>
    exact (h.toIdle (by rcases hphase with hp | hp <;> simp [hp])).afterRsp r
  | finishedSilently hphase _ => exact h.toIdle (by rcases hphase with hp | hp <;> simp [hp])

theorem BlockInv.senderTxs {s : State} (h : BlockInv s) (ok : Bool) : BlockInv (senderTxs ok s) := by
  have hrec := senderTxs_receiverFrame ok s
  have hreq := senderTxs_requestFrame ok s
  unfold Machine.senderTxs at hrec hreq ⊢
  split_ifs at hrec hreq ⊢ with hwait
  · obtain ⟨hphase, _⟩ := hwait
    cases ok with
    | true =>
      exact h.of_busy (by simp [hphase]) nofun hrec hreq rfl rfl
        (retriesLeft := nofun)
        (awaitsInSending := fun _ => rfl)
        (replyStored := fun _ => h.replyStored (.inl hphase))
        (timerBound := le_rfl)
        (outcomeAcked := nofun)
        (outcomeFailed := nofun)
    | false =>
      exact h.of_busy (by simp [hphase]) nofun hrec hreq rfl rfl
        (retriesLeft := nofun)
        (awaitsInSending := fun _ => rfl)
        (replyStored := by simp [sTxs])
        (timerBound := h.timerBound)
        (outcomeAcked := nofun)
        (outcomeFailed := fun _ => .inl rfl)
  · exact h

theorem BlockInv.tTick {s : State} (h : BlockInv s) : BlockInv (tTick s) := by
  unfold Machine.tTick
  split_ifs
  · exact
      { h with
        timerBound := (Nat.sub_le _ _).trans h.timerBound
        contextsOK := fun k c hc => (h.contextsOK k c hc).mono rfl fun _ hb => hb }
  · exact h

/-! Reset, and every step -/

theorem blockInv_resetWith (p : Config.Params) : BlockInv (State.resetWith p) where
  genLoaded := rfl
  faultComputed := by simp [State.resetWith, Config.genLenMin, Config.genLenMaxFrame]
  slotIffBusy := by simp [State.resetWith]
  slotSeq := nofun
  retriesLeft := nofun
  awaitsInSending := fun hp => absurd rfl hp
  replyStored := by simp [State.resetWith]
  timerBound := Nat.zero_le _
  frameBuilt := fun hp => absurd rfl hp
  outcomeAcked := nofun
  outcomeFailed := nofun
  faulted := fun _ => ⟨rfl, rfl, rfl, rfl, nofun⟩
  rising := List.Pairwise.nil
  bounded := fun n _ => Nat.zero_le n
  contextsOK := nofun

/-- Settles O59: a reset clears every register that a clause reads. -/
theorem invariantHoldsAfterReset : Obligations.InvariantHoldsAfterReset :=
  ⟨blockInv_resetWith _, blockInv_resetWith⟩

theorem BlockInv.stepResult {s t : State} {x : Config.Stimulus} (h : BlockInv s) (hst : StepResult s x t) :
    BlockInv t := by
  have hcur (k : Nat) : BlockInv { s with cur := k } := h.of_registers k _ _ _
  cases hst with
  | answered c r _ => exact h.afterRsp r
  | sendStarted c _ => exact h.startResult (sStart_result _ _ s)
  | accepted m peer => exact h.xAccept m peer
  | unawaited ok => exact h
  | senderAnswered ok => exact h.senderTxs ok
  | contextAnswered k ok => exact h.contextTxs k ok
  | ticked => exact h.tTick
  | wasReset p => exact (blockInv_resetWith p).of_registers _ _ _ _
  | senderRan => exact h.senderResult (senderStep_result s)
  | noContext k _ => exact h
  | rejected k c e _ _ _ => exact (hcur k).xReject k e
  | parsed k c f i hc _ hf hi => exact (hcur k).xParse hc hf hi
  | contextRan k c hc hp => exact (hcur k).xStep hc hp

/-- Settles O60: every result of `StepResult` keeps the invariant. -/
theorem invariantKeptByEveryStep : Obligations.InvariantKeptByEveryStep := by
  intro s t h hstep
  exact h.popStimulus.stepResult (step_result hstep)

end Sys2Proof.Machine

/-! ### The sender's registers over every step -/

namespace Sys2Proof.Machine

open Sys2Proof

@[simp] theorem State.acceptsSend_popStimulus (s : State) (x : Config.Stimulus) :
    s.popStimulus.acceptsSend x = s.acceptsSend x := by
  cases x <;> simp [State.acceptsSend]

theorem State.acceptsSend_cmd {s : State} {c : Cmd} (hop : c.op = 0x0C) :
    s.acceptsSend (.cmd c) = true ↔ s.phase = .idle ∧ s.cfgFault = false := by
  simp [State.acceptsSend, hop]

/-- A command other than `SEND` is no accepted `SEND`. -/
theorem State.acceptsSend_of_op_ne {s : State} {c : Cmd} (hop : c.op.toNat ≠ 0x0C) :
    s.acceptsSend (.cmd c) = false := by
  have hne : (c.op == 0x0C) = false := beq_false_of_ne fun h => hop (by rw [h]; rfl)
  simp only [State.acceptsSend, hne, Bool.false_and]

/-- An accepted `SEND` comes to `Idle` alone (R152). -/
theorem State.acceptsSend_of_busy {s : State} (h : s.phase ≠ .idle) (x : Config.Stimulus) :
    s.acceptsSend x = false := by
  cases x <;> simp [State.acceptsSend, h]

/-- Whether `S.START` advances the counter: an accepted `SEND` does, the one answered `LengthError` included (R153). -/
theorem sStart_seqCtr (bytes : Bytes) (isText : Bool) (s : State) :
    (sStart bytes isText s).seqCtr = if s.phase = .idle ∧ s.cfgFault = false then s.seqCtr + 1 else s.seqCtr := by
  generalize sStart bytes isText s = t, sStart_result bytes isText s = h
  cases h with
  | refused e h =>
    have : ¬(s.phase = .idle ∧ s.cfgFault = false) := by rintro ⟨hp, hf⟩; simp [hp, hf] at h
    simp [this]
  | tooLong hphase hfault _ => simp [hphase, hfault, sAlloc]
  | started hphase hfault _ => simp [hphase, hfault, sAlloc, sBuild, sRegister]

/-- Every step but a reset and an accepted `SEND` leaves the counter, the number and the frame (R28, R34). -/
theorem StepResult.requestFrame {s t : State} {x : Config.Stimulus} (h : StepResult s x t)
    (hreset : isReset x = false) (hsend : s.acceptsSend x = false) : RequestFrame s t := by
  cases hx : forReceiver x with
  | true => exact (h.senderFrame hx).requestFrame
  | false =>
    cases h with
    | answered c r _ => exact ⟨rfl, rfl, rfl⟩
    | sendStarted c hop =>
      have hst := sStart_result c.bytes c.flag s
      have hno : ¬(s.phase = .idle ∧ s.cfgFault = false) := by
        rw [← State.acceptsSend_cmd hop, hsend]; simp
      generalize sStart c.bytes c.flag s = t at hst
      cases hst with
      | refused e _ => exact ⟨rfl, rfl, rfl⟩
      | tooLong hphase hfault _ => exact absurd ⟨hphase, hfault⟩ hno
      | started hphase hfault _ => exact absurd ⟨hphase, hfault⟩ hno
    | unawaited ok => exact .refl s
    | senderAnswered ok => exact senderTxs_requestFrame ok s
    | ticked => exact tTick_requestFrame s
    | senderRan => exact (senderStep_result s).requestFrame
    | wasReset p => cases hreset
    | accepted | contextAnswered | noContext | rejected | parsed | contextRan => cases hx

/-- Settles O42: while a `SEND` is in progress no `SEND` is accepted, and only an accepted one writes the frame. -/
theorem frameNeverChangesWhileSending : Obligations.FrameNeverChangesWhileSending := by
  intro s t hstep hreset hphase
  have hreq := (step_result hstep).requestFrame hreset (by simp [State.acceptsSend_of_busy hphase])
  exact ⟨by simpa using hreq.frame, by simpa using hreq.seq⟩

/-- Settles O43: by `StepResult.requestFrame`, and by what `S.START` does with the counter. -/
theorem counterAdvancesOncePerSend : Obligations.CounterAdvancesOncePerSend := by
  intro s t hstep hreset
  have h := step_result hstep
  cases hsend : s.acceptsSend s.nextStimulus with
  | false => simpa using (h.requestFrame hreset (by simpa using hsend)).seqCtr
  | true =>
    generalize s.nextStimulus = x at h hsend
    cases h with
    | answered c r hop => simp [State.acceptsSend_of_op_ne hop] at hsend
    | sendStarted c hop => simp [sStart_seqCtr, (State.acceptsSend_cmd hop).1 hsend]
    | _ => cases hsend

/-- `S.START` changes `PHASE` when it accepts a `SEND` and builds its frame (R151, R154). -/
theorem StartResult.transition {payload : Bytes} {s t : State} (h : StartResult payload s t)
    (hne : t.phase ≠ s.phase) :
    s.phase = .idle ∧ s.cfgFault = false ∧ t.phase = .sending ∧ payload.length ≤ 65535 ∧
      t.pr.frame = dataFrame s.cfgGen.bits payload s.seqCtr.toNat ∧ t.pr.seq = s.seqCtr := by
  cases h with
  | refused e _ => exact absurd rfl hne
  | tooLong _ _ _ => exact absurd rfl hne
  | started hphase hfault hlen => exact ⟨hphase, hfault, rfl, hlen, rfl, rfl⟩

/-- The answer of the transport ends `Sending` (R157). -/
theorem senderTxs_transition {ok : Bool} {s : State} (hne : (senderTxs ok s).phase ≠ s.phase) :
    s.phase = .sending ∧ s.pr.txPending = true ∧
      ((ok = true ∧ (senderTxs ok s).phase = .awaitingAck) ∨
        (ok = false ∧ (senderTxs ok s).phase = .failed ∧ (senderTxs ok s).pr.outcome = .sendError)) := by
  unfold senderTxs at hne ⊢
  split_ifs at hne ⊢ with hwait
  · obtain ⟨hphase, hpending⟩ := hwait
    refine ⟨hphase, hpending, ?_⟩
    cases ok
    · exact .inr ⟨rfl, rfl, rfl⟩
    · exact .inl ⟨rfl, rfl⟩
  · exact absurd rfl hne

theorem tTick_phase (s : State) : (tTick s).phase = s.phase := by
  unfold tTick
  split_ifs <;> rfl

/-- The lines of the table of R151 that a step of `SENDER` takes when it waits for no transaction. -/
theorem SenderResult.transition {s t : State} (h : SenderResult s t) (hne : t.phase ≠ s.phase) :
    (s.phase = .awaitingAck ∧ t.phase = .acked ∧ s.ws.signal = true ∧ s.ws.result = .acked) ∨
    (s.phase = .awaitingAck ∧ t.phase = .pausing ∧ t.pauseKind = s.ws.signal ∧
      (s.ws.signal = true → s.ws.result ≠ .acked) ∧ (s.ws.signal = false → s.timer = 0)) ∨
    (s.phase = .pausing ∧ t.phase = .sending ∧ s.timer = 0 ∧ s.pr.retriesUsed.toNat < 3) ∨
    (s.phase = .pausing ∧ t.phase = .failed ∧ t.pr.outcome = .exhausted ∧ s.timer = 0 ∧
      s.pr.retriesUsed.toNat = 3) ∨
    ((s.phase = .acked ∨ s.phase = .failed) ∧ t.phase = .idle ∧ t.ws.valid = false) := by
  cases h with
  | waited => exact absurd rfl hne
  | transmitted _ _ => exact absurd rfl hne
  | wokeAcked hphase hsignal hresult => exact .inl ⟨hphase, rfl, hsignal, hresult⟩
  | wokeNacked hphase hsignal hresult =>
    exact .inr (.inl ⟨hphase, rfl, hsignal.symm, fun _ => hresult, fun hs => by simp [hsignal] at hs⟩)
  | timedOut hphase hsignal htimer =>
    exact .inr (.inl ⟨hphase, rfl, hsignal.symm, fun hs => by simp [hsignal] at hs, fun _ => htimer⟩)
  | pauseEnded hphase htimer hretries => exact .inr (.inr (.inl ⟨hphase, rfl, htimer, hretries⟩))
  | exhausted hphase htimer hretries => exact .inr (.inr (.inr (.inl ⟨hphase, rfl, rfl, htimer, hretries⟩)))
  | finished r hphase => exact .inr (.inr (.inr (.inr ⟨hphase, rfl, rfl⟩)))
  | finishedSilently hphase _ => exact .inr (.inr (.inr (.inr ⟨hphase, rfl, rfl⟩)))

/-- A result stored while the reply is awaited is `Nacked` when it is not `Acked` (R163(a)). -/
theorem BlockInv.result_nacked {s : State} (h : BlockInv s) (hphase : s.phase = .awaitingAck)
    (hsignal : s.ws.signal = true) (hresult : s.ws.result ≠ .acked) : s.ws.result = .nacked :=
  (h.replyStored (.inr (.inl hphase)) hsignal).resolve_left hresult

/-- Settles O41: the receiving side leaves `PHASE`; `S.START`, `S.TXS` and the other steps of `SENDER` each take their
lines of the table. -/
theorem senderTransitionsAreTheTable : Obligations.SenderTransitionsAreTheTable := by
  intro s t hstep hreset hne
  have h := step_result hstep
  have hne' : t.phase ≠ s.popStimulus.phase := by simpa using hne
  cases hx : forReceiver s.nextStimulus with
  | true => exact absurd (h.senderFrame hx).phase hne'
  | false =>
    generalize s.nextStimulus = x at h hreset hx
    cases h with
    | answered c r _ => exact absurd rfl hne'
    | sendStarted c hop =>
      obtain ⟨hphase, hfault, hsending, hlen, hframe, hseq⟩ := (sStart_result _ _ _).transition hne'
      rw [State.popStimulus_phase] at hphase
      rw [State.popStimulus_cfgFault] at hfault
      rw [State.popStimulus_cfgGen, State.popStimulus_seqCtr] at hframe
      rw [State.popStimulus_seqCtr] at hseq
      exact .inl ⟨hphase, hsending, (State.acceptsSend_cmd hop).2 ⟨hphase, hfault⟩, _, hlen, hframe, hseq⟩
    | unawaited ok => exact absurd rfl hne'
    | senderAnswered ok =>
      obtain ⟨hphase, hpending, h | h⟩ := senderTxs_transition hne'
      · obtain ⟨rfl, hto⟩ := h
        exact .inr (.inl ⟨by simpa using hphase, hto, by simpa using hpending, rfl⟩)
      · obtain ⟨rfl, hto, houtcome⟩ := h
        exact .inr (.inr (.inl ⟨by simpa using hphase, hto, by simpa using hpending, houtcome, rfl⟩))
    | ticked => exact absurd (tTick_phase _) hne'
    | senderRan =>
      have hsender := (senderStep_result s.popStimulus).transition hne'
      simp only [State.popStimulus_phase, State.popStimulus_ws, State.popStimulus_timer,
        State.popStimulus_pr] at hsender
      refine .inr (.inr (.inr (hsender.imp_right (.imp_left ?_))))
      rintro ⟨hphase, hto, hkind, hnot, htimer⟩
      exact ⟨hphase, hto, hkind, fun hs => ⟨hnot hs, fun hinv => hinv.result_nacked hphase hs (hnot hs)⟩, htimer⟩
    | wasReset p => cases hreset
    | accepted | contextAnswered | noContext | rejected | parsed | contextRan => cases hx

/-- Settles O53: `StepResult.senderFrame` and `StepResult.receiverFrame`. -/
theorem sidesAreCoupledByTheSlotAlone : Obligations.SidesAreCoupledByTheSlotAlone := by
  intro s t hstep
  have h := step_result hstep
  constructor
  · rintro ⟨k, ok, m, peer, hs⟩
    have hx : forReceiver s.nextStimulus = true := by rcases hs with hs | hs | hs <;> rw [hs] <;> rfl
    have hframe := h.senderFrame hx
    exact ⟨by simpa using hframe.phase, by simpa using hframe.pr, by simpa using hframe.timer,
      by simpa using hframe.pauseKind, by simpa using hframe.seqCtr, by simpa using hframe.cfgGen,
      by simpa using hframe.cfgFault⟩
  · rintro ⟨ok, hs⟩
    have hx : forReceiver s.nextStimulus = false ∧ isReset s.nextStimulus = false := by
      rcases hs with hs | hs | hs <;> rw [hs] <;> exact ⟨rfl, rfl⟩
    have hframe := h.receiverFrame hx.1 hx.2
    exact ⟨by simpa using hframe.delivered, by simpa using hframe.rxc⟩

/-- Settles O39: `S.FINISH` by each outcome it reports (R161). -/
theorem sendFinishes : Obligations.SendFinishes := by
  intro s hs hphase houtcome
  have hstep : step s = .next (sFinish s.popStimulus) := by
    rw [step, hs]
    simp only [takeStimulus, senderStep, State.popStimulus_phase]
    rcases hphase with hp | hp <;> rw [hp]
  rw [hstep, sFinish, sReport, State.popStimulus_pr, State.popStimulus_ws]
  cases ho : s.pr.outcome with
  | none => exact absurd ho houtcome
  | success => exact ⟨_, rfl, fun _ => ⟨rfl, rfl⟩, nofun, nofun⟩
  | exhausted => exact ⟨_, rfl, nofun, fun _ => ⟨rfl, rfl⟩, nofun⟩
  | sendError => exact ⟨_, rfl, nofun, nofun, fun _ => ⟨rfl, rfl⟩⟩

/-- Settles O57: two clauses of the invariant, and the registers of `State.reset` read off. -/
theorem resetStateIsTheTable : Obligations.ResetStateIsTheTable := by
  have hinv : BlockInv State.reset := blockInv_resetWith _
  exact ⟨hinv.genLoaded, hinv.faultComputed, rfl, rfl, rfl, rfl, rfl, rfl, rfl, rfl⟩

end Sys2Proof.Machine

/-! ### The delivered-set and the receive contexts over every step -/

namespace Sys2Proof.Machine

open Sys2Proof

theorem xAccept_delivered (m : Bytes) (peer : Addr) (s : State) : (xAccept m peer s).delivered = s.delivered := by
  unfold xAccept
  split_ifs <;> rfl

theorem xParse_delivered (k : Nat) (c : Context) (f : Fields) (next : Frame → CtxStep) (s : State) :
    (xParse k c f next s).delivered = s.delivered := by
  unfold xParse
  split_ifs
  · rfl
  · exact State.putContext_delivered s k _

theorem contextTxs_delivered (k : Nat) (ok : Bool) (s : State) : (contextTxs k ok s).delivered = s.delivered := by
  unfold contextTxs
  cases s.context k with
  | none => rfl
  | some c =>
    simp only
    cases c.step with
    | nackWait => cases ok <;> rfl
    | ackWait => cases ok <;> rfl
    | parse | nack | testInsert | deliver | ack | ackNack | done => rfl

/-- Of the steps of a context only the test-and-insert writes the delivered-set (R36). -/
theorem xStep_delivered {c : Context} (hc : c.step ≠ .testInsert) (k : Nat) (s : State) :
    (xStep k c s).delivered = s.delivered := by
  unfold xStep
  cases hstep : c.step with
  | nack => exact State.putContext_delivered _ _ _
  | testInsert => exact absurd hstep hc
  | deliver => exact State.putContext_delivered _ _ _
  | ack => exact State.putContext_delivered _ _ _
  | ackNack => exact State.storeReply_delivered _ _ _
  | parse | nackWait | ackWait | done => rfl

/-- What a step but a reset does with the delivered-set: nothing, or the test-and-insert of a context (R174). -/
theorem StepResult.delivered_cases {s t : State} {x : Config.Stimulus} (h : StepResult s x t)
    (hreset : isReset x = false) :
    t.delivered = s.delivered ∨
      ∃ k c, x = .run (.context k) ∧ s.context k = some c ∧ c.step = .testInsert ∧
        t.delivered = (s.markDelivered c.frame.fields.seq).delivered := by
  cases hx : forReceiver x with
  | false => exact .inl (h.receiverFrame hx hreset).delivered
  | true =>
    cases h with
    | accepted m peer => exact .inl (xAccept_delivered m peer s)
    | contextAnswered k ok => exact .inl (contextTxs_delivered k ok s)
    | noContext k _ => exact .inl rfl
    | rejected k c e _ _ _ => exact .inl rfl
    | parsed k c f i _ _ _ _ => exact .inl (xParse_delivered k c f _ { s with cur := k })
    | contextRan k c hc _ =>
      by_cases hstep : c.step = .testInsert
      · exact .inr ⟨k, c, rfl, hc, hstep, by simp [xStep, hstep, xDataOk]⟩
      · exact .inl (xStep_delivered hstep k { s with cur := k })
    | answered | sendStarted | unawaited | senderAnswered | ticked | wasReset | senderRan => cases hx

theorem State.isDelivered_congr {s t : State} (h : t.delivered = s.delivered) (b : Byte) :
    t.isDelivered b = s.isDelivered b := by
  rw [State.isDelivered, State.isDelivered, h]

/-- Settles O54: a step leaves the delivered-set or marks the sequence number of a context in `TestInsert`. -/
theorem deliveredSetOnlyGrows : Obligations.DeliveredSetOnlyGrows := by
  intro s t b hstep hreset
  have hpop : s.popStimulus.isDelivered b = s.isDelivered b :=
    State.isDelivered_congr (State.popStimulus_delivered s) b
  rcases (step_result hstep).delivered_cases hreset with h | ⟨k, c, hx, hc, htest, h⟩
  · have hb : t.isDelivered b = s.isDelivered b := (State.isDelivered_congr h b).trans hpop
    rw [hb]
    exact ⟨id, fun hno hyes => by simp [hno] at hyes⟩
  · have hb : t.isDelivered b = (s.isDelivered b || b == c.frame.fields.seq) := by
      rw [State.isDelivered_congr h b, State.isDelivered_markDelivered, hpop]
    rw [hb]
    refine ⟨fun hyes => by simp [hyes], fun hno hyes => ⟨k, c, hx, by simpa using hc, htest, ?_⟩⟩
    rw [hno, Bool.false_or] at hyes
    exact (eq_of_beq hyes).symm

/-- A message that fits is taken by `X.ACCEPT` (R170). -/
theorem step_rx {s : State} {m : Bytes} {peer : Addr} (hs : s.nextStimulus = .rx m peer)
    (hfit : ∀ n, s.params.bytesMax = some n → m.length ≤ n) : step s = .next (xAccept m peer s.popStimulus) := by
  have hwithin : within s.popStimulus.params.bytesMax m.length = true := by
    rw [State.popStimulus_params]
    exact within_iff.2 hfit
  rw [step, hs]
  exact if_pos hwithin

/-- With a context to spare `X.ACCEPT` creates one; with none it changes nothing (R170, R208(a)). -/
theorem xAccept_eq (m : Bytes) (peer : Addr) (s : State) :
    ((∀ n, s.params.rxContexts = some n → s.rxc.length < n) → xAccept m peer s = s.createContext m peer) ∧
    ((∃ n, s.params.rxContexts = some n ∧ n ≤ s.rxc.length) → xAccept m peer s = s) := by
  refine ⟨fun hroom => if_pos (within_iff.2 hroom), fun ⟨n, hn, hfull⟩ => if_neg fun hroom => ?_⟩
  have := within_iff.1 hroom n hn
  omega

/-- A new context stands under an index that was free, and the others stay (R170). -/
theorem State.context_createContext {s : State} (hr : s.ContextsRising) (m : Bytes) (peer : Addr) :
    ∃ k, s.context k = none ∧ (s.createContext m peer).context k = some (newContext m peer s.free) ∧
      ∀ j, j ≠ k → (s.createContext m peer).context j = s.context j :=
  ⟨freshContext 0 s.rxc, lookupContext_fresh hr, lookupContext_insertContext_self _ _ _,
    fun _ hj => lookupContext_insertContext_ne hj _ _⟩

/-- Settles O46: by what `X.ACCEPT` does with and without a context to spare. -/
theorem messagesGetTheirOwnContext : Obligations.MessagesGetTheirOwnContext := by
  intro s m peer hr hs hfit
  rw [step_rx hs hfit]
  obtain ⟨hcreate, hkeep⟩ := xAccept_eq m peer s.popStimulus
  simp only [State.popStimulus_params, State.popStimulus_rxc] at hcreate hkeep
  refine ⟨fun hroom => ?_, fun hfull => by rw [hkeep hfull]⟩
  have hr' : s.popStimulus.ContextsRising := by simpa [State.ContextsRising] using hr
  obtain ⟨k, hfree, hnew, hothers⟩ := State.context_createContext hr' m peer
  simp only [State.context_popStimulus] at hfree hothers
  exact ⟨k, _, s.popStimulus.createContext m peer, by rw [hcreate hroom], hfree, hnew, rfl, rfl, rfl, hothers, rfl⟩

end Sys2Proof.Machine

/-! ### The answers of the pure operations -/

namespace Sys2Proof.Machine

open Sys2Proof

/-- A pure operation whose operands and buffers fit answers `OK` with what it computes. -/
theorem pureOp_map_ok {α : Type} {comp : Except Err α} {a : α} {s : State} {n m : Nat} {w : Work}
    {fill : α → Rsp → Rsp} (hcomp : comp = .ok a) (h : buffersFit s.params n m = true)
    (hw : buffersFit s.params w.nbits w.nbytes = true) :
    pureOp s n m w (comp.map fill) =
      .next (s.afterRsp { fill a (Config.freeRsp s.free) with status := statusCode .ok, info := 0 }) := by
  rw [hcomp]
  exact pureOp_ok (fill a) h hw

/-- A pure operation whose operands fit answers the error it finds. -/
theorem pureOp_map_error {α : Type} {comp : Except Err α} {e : Err} {s : State} {n m : Nat} {w : Work}
    {fill : α → Rsp → Rsp} (hcomp : comp = .error e) (h : buffersFit s.params n m = true) :
    pureOp s n m w (comp.map fill) =
      .next (s.afterRsp { Config.freeRsp s.free with status := statusCode e.status, info := e.info }) := by
  rw [hcomp]
  exact pureOp_error w e h

theorem frameGenOK_eq_true {gen : Bits} (h1 : 1 ≤ gen.length) (h8 : gen.length ≤ 8) : frameGenOK gen = true :=
  frameGenOK_iff.2 ⟨h1, h8⟩

theorem frameGenOK_eq_false {gen : Bits} (h : gen.length < 1 ∨ 8 < gen.length) : frameGenOK gen = false := by
  rw [Bool.eq_false_iff, ne_eq, frameGenOK_iff]
  omega

/-- Settles O10: the register fits the byte `value` (R103), and the generator check comes first (R101). -/
theorem registerModeAnswers : Obligations.RegisterModeAnswers := by
  intro gen data s hfit
  refine ⟨fun h1 h8 => ?_, fun hbad => ?_⟩
  · have hcrc : crcReg gen data = .ok (BitVec.ofNat 8 (regRem gen (bytesToBits data))) :=
      if_pos (frameGenOK_eq_true h1 h8)
    have hlt : regRem gen (bytesToBits data) < 2 ^ 8 :=
      (regRem_lt gen _).trans_le (Nat.pow_le_pow_right (by decide) h8)
    refine ⟨_, pureOp_map_ok hcrc hfit (buffersFit_zero _), ⟨rfl, rfl⟩, ?_⟩
    exact Nat.mod_eq_of_lt hlt
  · have hcrc : crcReg gen data = .error errFrameGen := if_neg (by simp [frameGenOK_eq_false hbad])
    exact ⟨_, pureOp_map_error hcrc hfit, rfl, rfl⟩

theorem divGenOK_eq_false {p : Config.Params} {gen : Bits}
    (h : gen.getD 0 false = false ∨ ∃ m, p.divGenMax = some m ∧ m < gen.length) : divGenOK p gen = false := by
  rw [Bool.eq_false_iff, ne_eq, divGenOK_iff]
  rintro ⟨hfirst, hmax⟩
  obtain h | ⟨m, hm, hlt⟩ := h
  · rw [h] at hfirst
    cases hfirst
  · exact absurd (hmax m hm) (Nat.not_le_of_lt hlt)

theorem exactRem_length {gen : Bits} (hgen : gen.getD 0 false = true) (msg : Bits) :
    (exactRem gen msg).length = gen.length - 1 := by
  obtain ⟨g, rfl⟩ : ∃ g, gen = true :: g := by
    cases gen <;> simp_all
  exact (exactRem_spec g msg).1

/-- The three operations of exact division with an acceptable generator (R107, R110, R111). -/
theorem exactDivision_ok {p : Config.Params} {gen : Bits} (h : divGenOK p gen = true) (msg : Bits) :
    crcDiv p gen msg = .ok (exactRem gen msg) ∧ crcEnc p gen msg = .ok (msg ++ exactRem gen msg) ∧
      crcVfy p gen msg = .ok (allZero (exactRem gen msg), exactRem gen msg) :=
  ⟨if_pos h, if_pos h, if_pos h⟩

/-- The three operations of exact division with any other generator (R101, R201). -/
theorem exactDivision_error {p : Config.Params} {gen : Bits} (h : divGenOK p gen = false) (msg : Bits) :
    crcDiv p gen msg = .error errDivGen ∧ crcEnc p gen msg = .error errDivGen ∧
      crcVfy p gen msg = .error errDivGen := by
  simp [crcDiv, crcEnc, crcVfy, h]

/-- Settles O13: by the generator check, the length of the remainder and `allZero_iff`. -/
theorem exactDivisionAnswers : Obligations.ExactDivisionAnswers := by
  intro gen msg s hfit
  refine ⟨fun hgen hwork => ?_, fun hbad => ?_⟩
  · obtain ⟨hdiv, henc, hvfy⟩ := exactDivision_ok (divGenOK_iff.2 hgen) msg
    have hlen := exactRem_length hgen.1 msg
    refine ⟨⟨_, pureOp_map_ok hdiv hfit hwork, ⟨rfl, rfl⟩, rfl, hlen⟩,
      ⟨_, pureOp_map_ok henc hfit hwork, ⟨rfl, rfl⟩, rfl, ?_⟩,
      ⟨_, pureOp_map_ok hvfy hfit hwork, ⟨rfl, rfl⟩, rfl, ?_⟩⟩
    · rw [List.length_append, hlen]
    · rw [← hlen]
      exact allZero_iff
  · obtain ⟨hdiv, henc, hvfy⟩ := exactDivision_error (divGenOK_eq_false hbad) msg
    exact ⟨⟨_, pureOp_map_error hdiv hfit, rfl, rfl⟩, ⟨_, pureOp_map_error henc hfit, rfl, rfl⟩,
      ⟨_, pureOp_map_error hvfy hfit, rfl, rfl⟩⟩

/-- The header by its five bytes (R131, R76). -/
theorem header_eq (t : Byte) (seq : BitVec 32) (len : Nat) :
    header t seq.toNat len = [1, t, seq.setWidth 8, BitVec.ofNat 8 (len / 256), BitVec.ofNat 8 len] := by
  have hseq : BitVec.ofNat 8 (seq.toNat % 256) = seq.setWidth 8 := by
    apply BitVec.eq_of_toNat_eq
    simp
  rw [header, memBytes_two, hseq]
  rfl

/-- Settles O24: the header by its bytes, and the two checks in the order of R134. -/
theorem buildDataAnswers : Obligations.BuildDataAnswers := by
  intro payload gen seq s hfit
  refine ⟨fun hbad => ?_, fun h1 h8 hlong => ?_, fun h1 h8 hlen => ?_⟩
  · have hbld : bldData gen payload seq.toNat = .error errFrameGen := by
      simp [bldData, frameGenOK_eq_false hbad]
    exact ⟨_, pureOp_map_error hbld hfit, rfl, rfl⟩
  · have hbld : bldData gen payload seq.toNat = .error errLength := by
      simp [bldData, frameGenOK_eq_true h1 h8, Config.maxPayload, hlong]
    exact ⟨_, pureOp_map_error hbld hfit, rfl, rfl⟩
  · have hbld : bldData gen payload seq.toNat = .ok (dataFrame gen payload seq.toNat) := by
      simp [bldData, frameGenOK_eq_true h1 h8, Config.maxPayload, Nat.not_lt.2 hlen]
    refine ⟨_, BitVec.ofNat 8 (payload.length / 256), BitVec.ofNat 8 payload.length,
      pureOp_map_ok hbld hfit (buffersFit_zero _), ⟨rfl, rfl⟩, ?_, ?_⟩
    · simp only [BitVec.toNat_ofNat]
      omega
    · rw [← header_eq 0 seq payload.length]
      rfl

/-- Settles O25: the header by its bytes, and the generator check. -/
theorem buildAckAnswers : Obligations.BuildAckAnswers := by
  intro seq positive gen s hfit
  refine ⟨fun hbad => ?_, fun h1 h8 => ?_⟩
  · have hbld : bldAck gen seq.toNat positive = .error errFrameGen := by
      simp [bldAck, frameGenOK_eq_false hbad]
    exact ⟨_, pureOp_map_error hbld hfit, rfl, rfl⟩
  · have hbld : bldAck gen seq.toNat positive = .ok (ackFrame gen seq.toNat positive) := by
      simp [bldAck, frameGenOK_eq_true h1 h8]
    have hframe : ackFrame gen seq.toNat positive = [1, if positive then 1 else 2, seq.setWidth 8, 0, 0,
        checksum gen [1, if positive then 1 else 2, seq.setWidth 8, 0, 0]] := by
      rw [ackFrame, header_eq]
      rfl
    exact ⟨_, pureOp_map_ok hbld hfit (buffersFit_zero _), ⟨rfl, rfl⟩, hframe⟩

/-- The length field is bytes 3 and 4, most significant first (R56). -/
theorem memRead_length (f : Bytes) (h : 6 ≤ f.length) :
    memRead f 3 2 = 256 * (f.getD 3 0).toNat + (f.getD 4 0).toNat := by
  match f, h with
  | a :: b :: c :: d :: e :: rest, _ => simp [memRead]

/-- A message of fewer than 6 bytes is no frame (R137). -/
theorem parseFields_tooShort {f : Bytes} (h : f.length < 6) : parseFields f = .error .tooShort := if_pos h

/-- The length field is checked next (R137). -/
theorem parseFields_lengthMismatch {f : Bytes} (h6 : 6 ≤ f.length) (h : memRead f 3 2 ≠ f.length - 6) :
    parseFields f = .error .lengthMismatch := by
  have hlen : ((f.drop 5).take (f.length - 6)).length = f.length - 6 := by
    simp only [List.length_take, List.length_drop]
    omega
  exact (if_neg (Nat.not_lt.2 h6)).trans (if_pos (by rw [← hlen] at h; exact h))

/-- Writing the integer of two bytes gives the two bytes back (R53). -/
theorem memBytes_two_of_bytes (hi lo : Byte) : memBytes 2 (256 * hi.toNat + lo.toNat) = [hi, lo] := by
  have hhi : BitVec.ofNat 8 ((256 * hi.toNat + lo.toNat) / 256) = hi := by
    apply BitVec.eq_of_toNat_eq
    rw [BitVec.toNat_ofNat]
    omega
  have hlo : BitVec.ofNat 8 (256 * hi.toNat + lo.toNat) = lo := by
    apply BitVec.eq_of_toNat_eq
    rw [BitVec.toNat_ofNat]
    omega
  rw [memBytes_two, hhi, hlo]

/-- The length field of a parsed frame holds its value unchanged (R56). -/
theorem length_toNat {f : Bytes} (h6 : 6 ≤ f.length) (hlen : memRead f 3 2 = f.length - 6) :
    (BitVec.ofNat 16 (f.length - 6)).toNat = f.length - 6 := by
  rw [← hlen, memRead_length f h6, BitVec.toNat_ofNat]
  have h3 := (f.getD 3 0).isLt
  have h4 := (f.getD 4 0).isLt
  omega

/-- The header and the payload of a parsed frame are the frame less its checksum byte (R56, R136). -/
theorem fieldsHeader_append_payload {f : Bytes} {x : Fields} (h : parseFields f = .ok x) :
    fieldsHeader x ++ x.payload = f.take (f.length - 1) := by
  obtain ⟨h6, hlen, rfl⟩ := parseFields_ok.1 h
  have hbytes : memBytes 2 (BitVec.ofNat 16 (f.length - 6)).toNat = [f.getD 3 0, f.getD 4 0] := by
    rw [length_toNat h6 hlen, ← hlen, memRead_length f h6, memBytes_two_of_bytes]
  simp only [fieldsHeader, hbytes]
  match f, h6 with
  | a :: b :: c :: d :: e :: g :: rest, _ => simp

/-- `PARSE` of a frame that passes the checks (R136). -/
theorem parseFrame_ok {gen : Bits} {f : Bytes} {x : Fields} (hgen : frameGenOK gen = true)
    (hx : parseFields f = .ok x) : parseFrame gen f = .ok (checkFrame gen x) := by
  rw [parseFrame, hgen, hx]
  rfl

/-- `PARSE` of a message that is no frame (R137, R202). -/
theorem parseFrame_error {gen : Bits} {f : Bytes} {e : FormatReject} (hgen : frameGenOK gen = true)
    (he : parseFields f = .error e) : parseFrame gen f = .error (formatErr e) := by
  rw [parseFrame, hgen, he]
  rfl

/-- Settles O26: by the two format checks in the order of R137, and the frame less its checksum byte. -/
theorem parseAnswers : Obligations.ParseAnswers := by
  intro f gen s hfit
  refine ⟨fun hbad => ?_, fun h1 h8 => ⟨fun hshort => ?_, fun h6 hne => ?_, fun h6 heq => ?_⟩⟩
  · have hparse : parseFrame gen f = .error errFrameGen := by simp [parseFrame, frameGenOK_eq_false hbad]
    exact ⟨_, pureOp_map_error hparse hfit, rfl, rfl⟩
  · have hparse := parseFrame_error (frameGenOK_eq_true h1 h8) (parseFields_tooShort hshort)
    exact ⟨_, pureOp_map_error hparse hfit, rfl, rfl⟩
  · rw [← memRead_length f h6] at hne
    have hparse := parseFrame_error (frameGenOK_eq_true h1 h8) (parseFields_lengthMismatch h6 hne)
    exact ⟨_, pureOp_map_error hparse hfit, rfl, rfl⟩
  · have hlen : memRead f 3 2 = f.length - 6 := (memRead_length f h6).trans heq
    have hfields := parseFields_ok.2 ⟨h6, hlen, rfl⟩
    have hparse := parseFrame_ok (frameGenOK_eq_true h1 h8) hfields
    refine ⟨_, pureOp_map_ok hparse hfit (buffersFit_zero _), ⟨rfl, rfl⟩, rfl, rfl, rfl,
      length_toNat h6 hlen, rfl, rfl, ?_⟩
    rw [← fieldsHeader_append_payload hfields]
    rfl

end Sys2Proof.Machine

/-! ### Messages and their encodings -/

namespace Sys2Proof.Machine

open Sys2Proof

/-- The length field of a parsed frame is the byte count of its payload (R73, R81). -/
theorem length_payload_of_parseFields {m : Bytes} {f : Fields} (h : parseFields m = .ok f) :
    f.length.toNat = m.length - 6 ∧ f.payload.length = m.length - 6 := by
  obtain ⟨h6, hlen, rfl⟩ := parseFields_ok.1 h
  refine ⟨length_toNat h6 hlen, ?_⟩
  simp only [List.length_take, List.length_drop]
  omega

/-- A frame is its header, its payload and its checksum byte (R56, R73). -/
theorem eq_frame_of_parseFields {m : Bytes} {f : Fields} (h : parseFields m = .ok f) :
    m = fieldsHeader f ++ f.payload ++ [f.checksum] := by
  rw [fieldsHeader_append_payload h]
  obtain ⟨h6, _, rfl⟩ := parseFields_ok.1 h
  have hne : m ≠ [] := List.ne_nil_of_length_pos (by omega)
  have hlast : m.getD (m.length - 1) 0 = m.getLast hne := by
    rw [List.getLast_eq_getElem, List.getD_eq_getElem _ _ (by omega)]
  rw [hlast, ← List.dropLast_eq_take, List.dropLast_append_getLast]

theorem fieldsHeader_length (f : Fields) : (fieldsHeader f).length = 5 := by simp [fieldsHeader]

/-- The header of a frame is its first five bytes (R56). -/
theorem fieldsHeader_eq_take {m : Bytes} {f : Fields} (h : parseFields m = .ok f) : fieldsHeader f = m.take 5 := by
  conv_rhs => rw [eq_frame_of_parseFields h, List.append_assoc]
  exact (List.take_left' (fieldsHeader_length f)).symm

/-- The operation a frame selects carries every field of the frame: its encoding is the frame's bytes, and it is well
formed when the length field is right (R73, R80). -/
theorem encode_of_selectWire {f : Fields} {i : Instr} (h : selectWire f = .ok i) :
    encode i = .message (fieldsHeader f ++ f.payload ++ [f.checksum]) ∧
      i.wellFormed = (f.length.toNat == f.payload.length) := by
  unfold selectWire at h
  split_ifs at h with hdata hack hnack <;> cases h
  · rw [fieldsHeader, hdata]
    exact ⟨rfl, rfl⟩
  · rw [fieldsHeader, hack]
    exact ⟨rfl, rfl⟩
  · rw [fieldsHeader, hnack]
    exact ⟨rfl, rfl⟩

/-- Settles O2: the operation carries the fields of the frame, and the fields make up the message. -/
theorem decodedMessageReencodes : Obligations.DecodedMessageReencodes := by
  intro m i hdecode
  obtain ⟨f, hparse, hselect⟩ := decode_message_ok.1 hdecode
  obtain ⟨hencode, hwf⟩ := encode_of_selectWire hselect
  obtain ⟨hlength, hpayload⟩ := length_payload_of_parseFields hparse
  refine ⟨?_, ?_⟩
  · rw [hwf, hlength, hpayload]
    exact beq_self_eq_true _
  · rw [hencode, ← eq_frame_of_parseFields hparse]

/-- Settles O4: by the two format checks in the order of R137, and the parts of a frame. -/
theorem formatChecksAndFrameMap : Obligations.FormatChecksAndFrameMap := by
  intro m
  refine ⟨parseFields_tooShort, fun h6 hne => ?_, fun h6 heq => ?_⟩
  · rw [← memRead_length m h6] at hne
    exact parseFields_lengthMismatch h6 hne
  · have hparse := parseFields_ok.2 ⟨h6, (memRead_length m h6).trans heq, rfl⟩
    obtain ⟨hlength, hpayload⟩ := length_payload_of_parseFields hparse
    refine ⟨_, hparse, rfl, rfl, rfl, hlength, hpayload, ?_⟩
    rw [← fieldsHeader_eq_take hparse]
    exact eq_frame_of_parseFields hparse

end Sys2Proof.Machine

/-! ### Packing and unpacking by their bits -/

namespace Sys2Proof.Machine

open Sys2Proof

/-- Bit `j` of a byte, counted from the most significant one, is bit `7 - j` (R52). -/
theorem byteBits_getD (b : Byte) {j : Nat} (hj : j < 8) : (byteBits b).getD j false = b.getLsbD (7 - j) := by
  rw [List.getD_eq_getElem _ _ (by simpa using hj)]
  simp [byteBits, bitsN, BitVec.getLsbD]

/-- Bit `8*i + j` of the unpacked bytes lies in byte `i` (R117). -/
theorem bytesToBits_getD {bs : Bytes} {i j : Nat} (hi : i < bs.length) (hj : j < 8) :
    (bytesToBits bs).getD (8 * i + j) false = (bs.getD i 0).getLsbD (7 - j) := by
  induction bs generalizing i with
  | nil => exact absurd hi (Nat.not_lt_zero i)
  | cons b bs ih =>
    rw [bytesToBits_cons]
    cases i with
    | zero =>
      rw [Nat.mul_zero, Nat.zero_add, List.getD_append _ _ _ _ (by simpa using hj), byteBits_getD b hj]
      rfl
    | succ i =>
      have hpast : 8 * (i + 1) + j - (byteBits b).length = 8 * i + j := by rw [byteBits_length]; omega
      rw [List.getD_append_right _ _ _ _ (by rw [byteBits_length]; omega), hpast, ih (by simpa using hi)]
      rfl

/-- Eight bits are the bits of the byte they make (R11, R52). -/
theorem byteBits_ofNat_val {w : Bits} (h : w.length = 8) : byteBits (BitVec.ofNat 8 (val w)) = w := by
  rw [byteBits, BitVec.toNat_ofNat, bitsN_mod, ← h, bitsN_val]

/-- The padding fills the last byte up (R118). -/
theorem length_add_padLen (n : Nat) : n + padLen n = 8 * ((n + 7) / 8) := by
  unfold padLen
  omega

theorem padded_length (b : Bits) : (b ++ zeros (padLen b.length)).length = 8 * ((b.length + 7) / 8) := by
  rw [List.length_append, zeros_length, length_add_padLen]

/-- The padding bits are 0, as is every bit past the end (R118). -/
theorem append_zeros_getD (b : Bits) (k n : Nat) : (b ++ zeros k).getD n false = b.getD n false := by
  rcases Nat.lt_or_ge n b.length with hn | hn
  · exact List.getD_append _ _ _ _ hn
  · rw [List.getD_append_right _ _ _ _ hn, List.getD_eq_default _ _ hn]
    simp [zeros]

theorem bitsToBytes_length (b : Bits) : (bitsToBytes b).length = (b.length + 7) / 8 := by
  simp only [bitsToBytes, List.length_map, List.length_range, padded_length]
  omega

/-- Byte `i` of the packed sequence holds the eight padded bits from `8*i` on (R118). -/
theorem byteBits_bitsToBytes {b : Bits} {i : Nat} (hi : i < (bitsToBytes b).length) :
    byteBits ((bitsToBytes b).getD i 0) = ((b ++ zeros (padLen b.length)).drop (8 * i)).take 8 := by
  have hlen : (((b ++ zeros (padLen b.length)).drop (8 * i)).take 8).length = 8 := by
    rw [bitsToBytes_length] at hi
    rw [List.length_take, List.length_drop, padded_length]
    omega
  rw [List.getD_eq_getElem _ _ hi]
  simp only [bitsToBytes, List.getElem_map, List.getElem_range]
  exact byteBits_ofNat_val hlen

/-- Bit `7 - j` of byte `i` of the packed sequence is bit `8*i + j` of the sequence, or padding (R118). -/
theorem bitsToBytes_getLsbD {b : Bits} {i j : Nat} (hi : i < (bitsToBytes b).length) (hj : j < 8) :
    ((bitsToBytes b).getD i 0).getLsbD (7 - j) = b.getD (8 * i + j) false := by
  calc ((bitsToBytes b).getD i 0).getLsbD (7 - j)
      = (((b ++ zeros (padLen b.length)).drop (8 * i)).take 8).getD j false := by
        rw [← byteBits_getD _ hj, byteBits_bitsToBytes hi]
    _ = (b ++ zeros (padLen b.length)).getD (8 * i + j) false := by
        simp only [List.getD_eq_getElem?_getD, List.getElem?_take_of_lt hj, List.getElem?_drop]
    _ = b.getD (8 * i + j) false := append_zeros_getD b _ _

/-- Settles O19: by `bytesToBits_getD`. -/
theorem unpackingAnswers : Obligations.UnpackingAnswers := by
  intro bs s hfit
  have hoperand : buffersFit s.params 0 bs.length = true := buffersFit_mono hfit (Nat.zero_le _) le_rfl
  have hresult : buffersFit s.params (8 * bs.length) 0 = true := buffersFit_mono hfit le_rfl (Nat.zero_le _)
  exact ⟨_, pureOp_ok _ hoperand hresult, ⟨rfl, rfl⟩, bytesToBits_length bs, fun _ _ => bytesToBits_getD⟩

/-- Settles O20: by `bitsToBytes_getLsbD`. -/
theorem packingAnswers : Obligations.PackingAnswers := by
  intro b s hfit
  have hoperand : buffersFit s.params b.length 0 = true := buffersFit_mono hfit le_rfl (Nat.zero_le _)
  have hresult : buffersFit s.params 0 ((b.length + 7) / 8) = true := buffersFit_mono hfit (Nat.zero_le _) le_rfl
  exact ⟨_, pureOp_ok _ hoperand hresult, ⟨rfl, rfl⟩, bitsToBytes_length b, fun _ _ => bitsToBytes_getLsbD⟩

end Sys2Proof.Machine

/-! ### The signal of the wait-slot -/

namespace Sys2Proof.Machine

open Sys2Proof

theorem xAccept_ws (m : Bytes) (peer : Addr) (s : State) : (xAccept m peer s).ws = s.ws := by
  unfold xAccept
  split_ifs <;> rfl

theorem xParse_ws (k : Nat) (c : Context) (f : Fields) (next : Frame → CtxStep) (s : State) :
    (xParse k c f next s).ws = s.ws := by
  unfold xParse
  split_ifs
  · rfl
  · exact State.putContext_ws _ _ _

theorem contextTxs_ws (k : Nat) (ok : Bool) (s : State) : (contextTxs k ok s).ws = s.ws := by
  unfold contextTxs
  cases s.context k with
  | none => rfl
  | some c =>
    simp only
    cases c.step with
    | nackWait => cases ok <;> rfl
    | ackWait => cases ok <;> rfl
    | parse | nack | testInsert | deliver | ack | ackNack | done => rfl

/-- Storing a reply clears no signal (R177). -/
theorem State.storeReply_signal {s : State} (h : s.ws.signal = true) (q : Byte) (r : SlotResult) :
    (s.storeReply q r).ws.signal = true := by
  rw [State.storeReply_ws]
  split_ifs
  · rfl
  · exact h

/-- Of the steps of a receive context only `X.ACKNACK` writes the slot, and it clears no signal (R177, R178). -/
theorem xStep_signal {s : State} (h : s.ws.signal = true) (k : Nat) (c : Context) :
    (xStep k c s).ws.signal = true := by
  unfold xStep
  cases c.step with
  | nack => simpa [xNack] using h
  | testInsert => simpa [xDataOk] using h
  | deliver => simpa [xDeliver] using h
  | ack => simpa [xAck] using h
  | ackNack => exact State.storeReply_signal h _ _
  | parse | nackWait | ackWait | done => exact h

theorem StepResult.signal_of_forReceiver {s t : State} {x : Config.Stimulus} (h : StepResult s x t)
    (hx : forReceiver x = true) (hs : s.ws.signal = true) : t.ws.signal = true := by
  cases h with
  | accepted m peer => rwa [xAccept_ws]
  | contextAnswered k ok => rwa [contextTxs_ws]
  | noContext k _ => exact hs
  | rejected k c e _ _ _ => exact hs
  | parsed k c f i _ _ _ _ => rwa [xParse_ws]
  | contextRan k c _ _ => exact xStep_signal (s := { s with cur := k }) hs k c
  | answered | sendStarted | unawaited | senderAnswered | ticked | wasReset | senderRan => cases hx

/-- Of the steps of `SENDER` that wait for no transaction only `S.PAUSE_END` after a NACK clears the signal (R160). -/
theorem SenderResult.pauseEnded_of_signal {s t : State} (h : SenderResult s t) (hs : s.ws.signal = true)
    (ht : t.ws.signal = false) : s.phase = .pausing ∧ s.pauseKind = true ∧ s.timer = 0 := by
  cases h with
  | pauseEnded hphase htimer _ => exact ⟨hphase, by simpa [hs] using ht, htimer⟩
  | exhausted hphase htimer _ => exact ⟨hphase, by simpa [hs] using ht, htimer⟩
  | _ => cases hs.symm.trans ht

theorem senderTxs_signal (ok : Bool) (s : State) : (senderTxs ok s).ws.signal = s.ws.signal := by
  unfold senderTxs sTxs
  split_ifs <;> rfl

theorem tTick_ws (s : State) : (tTick s).ws = s.ws := by
  unfold tTick
  split_ifs <;> rfl

/-- `S.START` clears the signal only by registering the slot of an accepted `SEND` (R155). -/
theorem StartResult.accepted_of_signal {payload : Bytes} {s t : State} (h : StartResult payload s t)
    (hs : s.ws.signal = true) (ht : t.ws.signal = false) : s.phase = .idle ∧ s.cfgFault = false := by
  cases h with
  | refused e _ => cases hs.symm.trans ht
  | tooLong hphase hfault _ => exact ⟨hphase, hfault⟩
  | started hphase hfault _ => exact ⟨hphase, hfault⟩

/-- What clears a set signal, a reset aside (R63, R155, R160). -/
theorem StepResult.signal_cleared {s t : State} {x : Config.Stimulus} (h : StepResult s x t)
    (hreset : isReset x = false) (hs : s.ws.signal = true) (ht : t.ws.signal = false) :
    (x = .run .sender ∧ s.phase = .pausing ∧ s.pauseKind = true ∧ s.timer = 0) ∨ s.acceptsSend x = true := by
  cases hx : forReceiver x with
  | true => cases (h.signal_of_forReceiver hx hs).symm.trans ht
  | false =>
    cases h with
    | answered c r _ => cases hs.symm.trans ht
    | sendStarted c hop =>
      exact .inr ((State.acceptsSend_cmd hop).2 ((sStart_result _ _ s).accepted_of_signal hs ht))
    | unawaited ok => cases hs.symm.trans ht
    | senderAnswered ok => cases hs.symm.trans ((senderTxs_signal ok s).symm.trans ht)
    | ticked => rw [tTick_ws, hs] at ht; cases ht
    | senderRan => exact .inl ⟨rfl, (senderStep_result s).pauseEnded_of_signal hs ht⟩
    | wasReset p => cases hreset
    | accepted | contextAnswered | noContext | rejected | parsed | contextRan => cases hx

/-- Settles O44: by `StepResult.signal_cleared`. -/
theorem signalIsALatch : Obligations.SignalIsALatch := by
  intro s t hstep hreset hs ht
  simpa using (step_result hstep).signal_cleared hreset (by simpa using hs) ht

end Sys2Proof.Machine

/-! ### The model's stops -/

namespace Sys2Proof.Machine

open Sys2Proof

/-- The bits and the bytes of a capacity check are checked apart (R50). -/
theorem buffersFit_eq_and (p : Config.Params) (n m : Nat) :
    buffersFit p n m = (buffersFit p n 0 && buffersFit p 0 m) := by
  have hzero (limit : Option Nat) : within limit 0 = true := within_iff.2 fun k _ => Nat.zero_le k
  simp [buffersFit, hzero]

/-- A pure operation is stopped for its operands before anything else (R50, U17). -/
theorem pureOp_overCapacity {s : State} {n m : Nat} (w : Work) (comp : Except Err (Rsp → Rsp))
    (h : buffersFit s.params n m = false) : pureOp s n m w comp = .refused .overCapacity := by
  simp [pureOp, h]

/-- A pure operation that raises no error is stopped for any of its buffers (R50, D28). -/
theorem pureOp_ok_overCapacity {s : State} {n m : Nat} {w : Work} {fill : Rsp → Rsp}
    (h : buffersFit s.params n m = false ∨ buffersFit s.params w.nbits w.nbytes = false) :
    pureOp s n m w (.ok fill) = .refused .overCapacity := by
  rcases h with h | h <;> simp [pureOp, h]

/-- An exact division is stopped for its operands, or, when the generator is acceptable, for its working buffer. -/
theorem pureOp_division_overCapacity {α : Type} {s : State} {gen msg : Bits} {comp : Except Err α}
    {fill : α → Rsp → Rsp} (hcomp : divGenOK s.params gen = true → ∃ a, comp = .ok a)
    (h : buffersFit s.params (max gen.length msg.length) 0 = false ∨
      (divGenOK s.params gen = true ∧ buffersFit s.params (msg.length + (gen.length - 1)) 0 = false)) :
    pureOp s (divOperands gen msg) 0 (divWork gen msg) (comp.map fill) = .refused .overCapacity := by
  rcases h with hoperands | ⟨hgen, hwork⟩
  · exact pureOp_overCapacity _ _ hoperands
  · obtain ⟨a, rfl⟩ := hcomp hgen
    exact pureOp_ok_overCapacity (.inr hwork)

/-- A message longer than a finite `BYTES_MAX` is refused (R141(d), U17). -/
theorem step_rx_overCapacity {s : State} {m : Bytes} {peer : Addr} {n : Nat} (hs : s.nextStimulus = .rx m peer)
    (hmax : s.params.bytesMax = some n) (hlong : n < m.length) : step s = .refused .overCapacity := by
  have hwithin : within s.popStimulus.params.bytesMax m.length ≠ true := by
    rw [State.popStimulus_params, ne_eq, within_iff]
    exact fun hfit => Nat.not_le_of_lt hlong (hfit n hmax)
  rw [step, hs]
  exact if_neg hwithin

/-- A wire operation without its context is no enabled step (R171; log entry 7). -/
theorem wireOp_noContext {s : State} (h : s.context s.cur = none) (f : Fields) (next : Frame → CtxStep) :
    wireOp f next s = .fault .noContext := by
  simp [wireOp, h]

/-- `SEND` is stopped for its operand (U17). -/
theorem execSend_overCapacity {bs : Bytes} {s : State} (h : buffersFit s.params 0 bs.length = false)
    (isText : Bool) : execSend bs isText s = .refused .overCapacity := by
  simp [execSend, h]

/-- `DIVTRC` is stopped as the other exact divisions are, where it exists (R115). -/
theorem execDivtrc_overCapacity {gen msg : Bits} {s : State} (htrace : s.params.hasTrace = true)
    (h : buffersFit s.params (max gen.length msg.length) 0 = false ∨
      (divGenOK s.params gen = true ∧ buffersFit s.params (msg.length + (gen.length - 1)) 0 = false)) :
    execDivtrc gen msg s = .refused .overCapacity :=
  (if_pos htrace).trans (pureOp_division_overCapacity (fun hgen => ⟨_, if_pos hgen⟩) h)

/-- Settles O31: each stop by the lemma about the check that makes it. -/
theorem stopsAreByName : Obligations.StopsAreByName := by
  refine ⟨fun gen data s h => ?_, fun gen s seq positive h => ?_, fun gen msg s h => ?_, fun b s h => ?_,
    fun bs s h => ?_, fun bs s h => ?_, fun s m peer n => step_rx_overCapacity, fun v q n p cs s h => ?_⟩
  · exact ⟨pureOp_overCapacity _ _ h, pureOp_overCapacity _ _ h,
      fun _ => pureOp_overCapacity _ _ h⟩
  · exact pureOp_overCapacity _ _ h
  · have hok (hgen : divGenOK s.params gen = true) := exactDivision_ok hgen msg
    exact ⟨pureOp_division_overCapacity (fun hgen => ⟨_, (hok hgen).1⟩) h,
      pureOp_division_overCapacity (fun hgen => ⟨_, (hok hgen).2.1⟩) h,
      pureOp_division_overCapacity (fun hgen => ⟨_, (hok hgen).2.2⟩) h,
      fun htrace => execDivtrc_overCapacity htrace h⟩
  · rw [buffersFit_eq_and, Bool.and_eq_false_iff] at h
    exact pureOp_ok_overCapacity h
  · rw [buffersFit_eq_and, Bool.and_eq_false_iff] at h
    exact pureOp_ok_overCapacity h.symm
  · exact ⟨pureOp_ok_overCapacity (.inl h), pureOp_ok_overCapacity (.inl h), execSend_overCapacity h⟩
  · exact ⟨wireOp_noContext h _ _, wireOp_noContext h _ _, wireOp_noContext h _ _⟩

end Sys2Proof.Machine

/-! ### Decoding and encoding -/

namespace Sys2Proof.Machine

open Sys2Proof

/-- A frame passes the format checks, and its fields are read back, when its length field is the byte count of its
payload (R56, R73, R81). -/
theorem parseFields_frameBytes (v t q : Byte) {n : BitVec 16} {p : Bytes} (cs : Byte)
    (hn : n.toNat = p.length) :
    parseFields (frameBytes v t q n p cs) =
      .ok { version := v, type := t, seq := q, length := n, payload := p, checksum := cs } := by
  have hbytes : frameBytes v t q n p cs = [v, t, q] ++ memBytes 2 n.toNat ++ (p ++ [cs]) := by simp [frameBytes]
  have hlen : (frameBytes v t q n p cs).length = p.length + 6 := by
    simp [frameBytes]
    omega
  have hread : memRead (frameBytes v t q n p cs) 3 2 = n.toNat := by
    rw [hbytes]
    exact memRead_memBytes_two n.isLt _ _
  refine parseFields_ok.2 ⟨by omega, by omega, ?_⟩
  have hlength : BitVec.ofNat 16 p.length = n := by rw [← hn, BitVec.ofNat_toNat, BitVec.setWidth_eq]
  rw [hlen, Nat.add_sub_cancel, hlength, hbytes, memBytes_two]
  simp

/-- A frame whose type byte selects `i` decodes to `i` (R80). -/
theorem decode_frameBytes {v t q : Byte} {n : BitVec 16} {p : Bytes} {cs : Byte} {i : Instr}
    (hn : (n.toNat == p.length) = true)
    (hi : selectWire { version := v, type := t, seq := q, length := n, payload := p, checksum := cs } = .ok i) :
    decode (.message (frameBytes v t q n p cs)) = .ok i :=
  decode_message_ok.2 ⟨_, parseFields_frameBytes v t q cs (eq_of_beq hn), hi⟩

/-- Settles O1: a host operation by its row of the selector table, a wire operation by `decode_frameBytes`. -/
theorem decodeOfEncodeIsIdentity : Obligations.DecodeOfEncodeIsIdentity := by
  intro i hwf
  cases i with
  | rxData v q n p cs => exact decode_frameBytes hwf rfl
  | rxAck v q n p cs => exact decode_frameBytes hwf rfl
  | rxNack v q n p cs => exact decode_frameBytes hwf rfl
  | crcreg | crcdiv | crcenc | crcvfy | divtrc | bytes2b | b2bytes | classify | txt2pay | blddata | bldack | parse
  | send => rfl

/-- `decode` on a message that passes the format checks (R80, R82). -/
theorem decode_of_parseFields {m : Bytes} {f : Fields} (h : parseFields m = .ok f) :
    decode (.message m) = (selectWire f).mapError .wire := by
  simp only [decode, decodeMessage, h]
  cases selectWire f <;> rfl

/-- The mask `0x00FF000000` keeps bits 31 down to 24. -/
theorem and_typeMask (h : Nat) : h &&& 0x00FF000000 = 2 ^ 24 * (h / 2 ^ 24 % 2 ^ 8) := by
  have hmask : (0x00FF000000 : Nat) = 2 ^ 24 * (2 ^ 8 - 1) := rfl
  apply Nat.eq_of_testBit_eq
  intro i
  rw [hmask, Nat.testBit_and, Nat.testBit_two_pow_mul, Nat.testBit_two_pow_mul, Nat.testBit_mod_two_pow,
    Nat.testBit_two_pow_sub_one, Nat.testBit_div_two_pow]
  by_cases hi : 24 ≤ i
  · simp [hi, Bool.and_comm]
  · simp [hi]

/-- The header `H` of a frame under the mask of R80 is the type byte in its place. -/
theorem header_and_typeMask {m : Bytes} {f : Fields} (h : parseFields m = .ok f) :
    memRead m 0 5 &&& 0x00FF000000 = 2 ^ 24 * f.type.toNat := by
  have hm : m = frameBytes f.version f.type f.seq f.length f.payload f.checksum := eq_frame_of_parseFields h
  rw [and_typeMask, hm, Laws.Selector.header_type]

/-- `H` under the mask has the table's value for a type exactly when that is the frame's type byte (R80). -/
theorem header_and_typeMask_eq_iff {m : Bytes} {f : Fields} (h : parseFields m = .ok f) (t : Byte) :
    memRead m 0 5 &&& 0x00FF000000 = 2 ^ 24 * t.toNat ↔ f.type = t := by
  rw [header_and_typeMask h, ← BitVec.toNat_inj]
  omega

/-- Settles O3: the masked header tells the type byte, which is what `selectWire` looks at. -/
theorem wireOperationSelectedByType : Obligations.WireOperationSelectedByType := by
  intro m f hparse
  have hdata : memRead m 0 5 &&& 0x00FF000000 = 0x0000000000 ↔ f.type = Config.typeData :=
    header_and_typeMask_eq_iff hparse Config.typeData
  have hack : memRead m 0 5 &&& 0x00FF000000 = 0x0001000000 ↔ f.type = Config.typeAck :=
    header_and_typeMask_eq_iff hparse Config.typeAck
  have hnack : memRead m 0 5 &&& 0x00FF000000 = 0x0002000000 ↔ f.type = Config.typeNack :=
    header_and_typeMask_eq_iff hparse Config.typeNack
  rw [decode_of_parseFields hparse, selectWire]
  simp only [hdata, hack, hnack]
  split_ifs <;> rfl

/-- Settles O8: row by row of R84, each operand the row lists by the agreement on it. -/
theorem unlistedOperandsIgnored : Obligations.UnlistedOperandsIgnored := by
  intro c d hop hgen hbits hbytes hseq hflag
  change decodeCmd c = decodeCmd d
  unfold decodeCmd
  rw [← hop]
  split
  next h => rw [hgen (by simp [h]), hbytes (by simp [h])]
  next h => rw [hgen (by simp [h]), hbits (by simp [h])]
  next h => rw [hgen (by simp [h]), hbits (by simp [h])]
  next h => rw [hgen (by simp [h]), hbits (by simp [h])]
  next h => rw [hgen (by simp [h]), hbits (by simp [h])]
  next h => rw [hbytes (by simp [h])]
  next h => rw [hbits (by simp [h])]
  next h => rw [hbytes (by simp [h])]
  next h => rw [hbytes (by simp [h])]
  next h => rw [hbytes (by simp [h]), hgen (by simp [h]), hseq (by simp [h])]
  next h => rw [hseq (by simp [h]), hflag (by simp [h]), hgen (by simp [h])]
  next h => rw [hbytes (by simp [h]), hgen (by simp [h])]
  next h => rw [hbytes (by simp [h]), hflag (by simp [h])]
  next => rfl

/-- Settles O6: the decoder evaluated on the nine words. -/
theorem tableWordsDecode : Obligations.TableWordsDecode :=
  ⟨rfl, rfl, rfl, rfl, rfl, rfl, rfl, rfl, rfl⟩

/-- Settles O28: the checksum byte is the register, an `n`-bit number (R79, R132). -/
theorem checksumHasGeneratorWidth : Obligations.ChecksumHasGeneratorWidth := by
  intro gen d _ h8
  have hlt : (checksum gen d).toNat < 2 ^ gen.length := by
    rw [checksum_toNat h8]
    exact regRem_lt gen _
  refine ⟨checksum_toNat h8 d, hlt, fun c hc => ?_⟩
  have hne : checksum gen d ≠ c := by
    rintro rfl
    exact Nat.not_le_of_lt hlt hc
  exact beq_false_of_ne hne

end Sys2Proof.Machine

/-! ### Messages that are dropped, answers to replies, and `S.TX` -/

namespace Sys2Proof.Machine

open Sys2Proof

/-- A message has a reserved type when it is a frame whose type byte is 3 or more (R82(c)). -/
theorem type_of_reservedType {m : Bytes} {ty : Byte} (h : decodeMessage m = .error (.reservedType ty)) :
    ty = m.getD 1 0 ∧ 3 ≤ (m.getD 1 0).toNat := by
  unfold decodeMessage at h
  split at h
  · cases h
  · next f hparse =>
    have htype : f.type = m.getD 1 0 := by
      obtain ⟨_, _, rfl⟩ := parseFields_ok.1 hparse
      rfl
    unfold selectWire at h
    split_ifs at h with hdata hack hnack
    cases h
    refine ⟨htype, ?_⟩
    rw [← htype]
    have h0 : f.type.toNat ≠ 0 := fun h => hdata (BitVec.eq_of_toNat_eq h)
    have h1 : f.type.toNat ≠ 1 := fun h => hack (BitVec.eq_of_toNat_eq h)
    have h2 : f.type.toNat ≠ 2 := fun h => hnack (BitVec.eq_of_toNat_eq h)
    omega

/-- A step of a context in `Parse` whose message selects no wire operation drops it (R171, R172). -/
theorem contextStep_reject {k : Nat} {s : State} {c : Context} {e : WireReject} (hc : s.context k = some c)
    (hp : c.step = .parse) (hd : decodeMessage c.bytes = .error e) :
    contextStep k s = .next (xReject k e { s with cur := k }) := by
  simp only [contextStep, hc, hp, if_true, hd]

theorem State.contextsRising_popStimulus {s : State} (h : s.ContextsRising) : s.popStimulus.ContextsRising := by
  simpa [State.ContextsRising] using h

/-- Settles O48: `X.PARSE` rejects the message, with `EV_CONFIG` first and else the event of the rejection. -/
theorem unusableMessagesDropped : Obligations.UnusableMessagesDropped := by
  intro s k c e hrising hs hc hp hd
  have hreject : decodeMessage c.bytes = .error e := decode_message_error.1 hd
  have hstep : step s = .next (xReject k e { s.popStimulus with cur := k }) := by
    rw [step_run_context hs]
    exact contextStep_reject (by simpa using hc) hp hreject
  have hpop : s.popStimulus.ContextsRising := State.contextsRising_popStimulus hrising
  refine ⟨_, if s.cfgFault then evConfig else rejectEvent e, hstep, ?_,
    State.context_endContext_self _ k hpop, fun j hj => ?_, fun hf => if_pos hf, fun hf hshort => ?_,
    fun hf he => ?_, fun hf ty he => ?_⟩
  · rw [← State.popStimulus_out s, ← State.popStimulus_cfgFault s]
    rfl
  · exact (State.context_endContext_ne _ hj).trans (State.context_popStimulus s j)
  · have he : e = .format .tooShort := by
      rw [decodeMessage, parseFields_tooShort hshort] at hreject
      exact (Except.error.inj hreject).symm
    rw [hf, he]
    rfl
  · rw [hf, he]
    rfl
  · rw [he] at hreject
    obtain ⟨hty, hreserved⟩ := type_of_reservedType hreject
    refine ⟨?_, hreserved⟩
    rw [hf, he, hty]
    rfl

theorem step_txs_context {s : State} {k : Nat} {ok : Bool} (h : s.nextStimulus = .txs (some (.context k)) ok) :
    step s = .next (contextTxs k ok s.popStimulus) := by
  rw [step, h]; rfl

/-- The events of an answer to a reply, in order: the refusal, and what follows every NACK (R173, R176). -/
def replyEvents (c : Context) (ok : Bool) : List PortOut :=
  (if ok then [] else [.evt (evReplyTxFail c.frame.fields.seq)]) ++
    (if c.step = .nackWait then [.evt (evChecksumFail c.frame.fields.seq)] else [])

/-- An answer that a context awaits issues its events and ends the context (R173, R176). -/
theorem contextTxs_awaited {s : State} {k : Nat} {c : Context} (hc : s.context k = some c)
    (hwait : c.step = .nackWait ∨ c.step = .ackWait) (ok : Bool) :
    contextTxs k ok s = { s with out := s.out ++ replyEvents c ok }.endContext k := by
  rcases hwait with hw | hw
  · cases ok <;> simp [contextTxs, hc, hw, xNackTxs, replyEvents, State.emit]
  · cases ok <;> simp [contextTxs, hc, hw, xAckTxs, replyEvents, State.emit]

/-- Settles O51: by `contextTxs_awaited`. -/
theorem repliesEndTheirContext : Obligations.RepliesEndTheirContext := by
  intro s k c ok hrising hs hc hwait
  have hpop : s.popStimulus.ContextsRising := State.contextsRising_popStimulus hrising
  have hstep := step_txs_context hs
  rw [contextTxs_awaited (by simpa using hc) hwait ok] at hstep
  refine ⟨_, hstep, ?_, State.context_endContext_self _ k hpop, fun j hj => ?_⟩
  · rw [← State.popStimulus_out s, List.append_assoc]
    rfl
  · exact (State.context_endContext_ne _ hj).trans (State.context_popStimulus s j)

theorem step_run_sender {s : State} (h : s.nextStimulus = .run .sender) :
    step s = .next (senderStep s.popStimulus) := by
  rw [step, h]; rfl

/-- The guard of `S.TX` (R156). -/
theorem senderStep_transmits {s : State} (hphase : s.phase = .sending) (hpending : s.pr.txPending = false) :
    senderStep s = sTx s := by
  simp [senderStep, hphase, hpending]

/-- Settles O35: under its guard the step of `SENDER` is `S.TX`. -/
theorem senderTransmits : Obligations.SenderTransmits := by
  intro s hs hphase hpending
  rw [step_run_sender hs, senderStep_transmits (by simpa using hphase) (by simpa using hpending)]
  simp only [sTx, State.emit, State.popStimulus_out, State.popStimulus_pr, State.popStimulus_params]

end Sys2Proof.Machine

/-! ### One step of the register, and the corner cases of register mode (R105) -/

namespace Sys2Proof.Machine

open Sys2Proof

/-- The masked shift of `RegStep` is doubling, taking the bit in, and reduction modulo `2^n` (R102, R122(a)). -/
theorem shift_or_and_mask (n r : Nat) (b : Bool) :
    ((r <<< 1) ||| b.toNat) &&& (2 ^ n - 1) = (2 * r + b.toNat) % 2 ^ n := by
  have hor : (r <<< 1) ||| b.toNat = 2 * r + b.toNat := by
    rw [Nat.shiftLeft_eq, Nat.pow_one, Nat.mul_comm]
    exact (Nat.two_pow_add_eq_or_of_lt (i := 1) (by cases b <;> decide) r).symm
  rw [Nat.and_two_pow_sub_one_eq_mod, hor]

/-- With top bit 0 nothing is lost and nothing is XORed (R102). -/
theorem regStep_of_top_zero {n r : Nat} (hn : 1 ≤ n) (hr : r < 2 ^ (n - 1)) (gv : Nat) (b : Bool) :
    regStep n gv r b = 2 * r + b.toNat := by
  have htop : r.testBit (n - 1) = false := Nat.testBit_lt_two_pow hr
  have hlt : 2 * r + b.toNat < 2 ^ n := by
    have hb := b.toNat_le
    have hpow : 2 * 2 ^ (n - 1) = 2 ^ n := mul_pow_sub_one (by omega) 2
    omega
  simp only [regStep, htop, shift_or_and_mask, Nat.mod_eq_of_lt hlt, Bool.false_eq_true, if_false]

/-- With top bit 1 the shift loses `2^n`, and the generator is XORed in (R102). -/
theorem regStep_of_top_one {n r : Nat} (hn : 1 ≤ n) (hlow : 2 ^ (n - 1) ≤ r) (hr : r < 2 ^ n) (gv : Nat)
    (b : Bool) : regStep n gv r b = (2 * r + b.toNat - 2 ^ n) ^^^ gv := by
  have htop : r.testBit (n - 1) = true :=
    Nat.testBit_of_two_pow_le_and_two_pow_add_one_gt hlow (by rwa [Nat.sub_add_cancel hn])
  have hmod : (2 * r + b.toNat) % 2 ^ n = 2 * r + b.toNat - 2 ^ n := by
    have hb := b.toNat_le
    have hpow : 2 * 2 ^ (n - 1) = 2 ^ n := mul_pow_sub_one (by omega) 2
    rw [Nat.mod_eq_sub_mod (by omega), Nat.mod_eq_of_lt (by omega)]
  simp only [regStep, htop, shift_or_and_mask, hmod, if_true]

/-- Settles O9: by the top bit of the register. -/
theorem regStepShiftsAndReduces : Obligations.RegStepShiftsAndReduces := by
  intro n gv r b hn hgv hr
  exact ⟨fun hlow => regStep_of_top_zero hn hlow gv b, fun hhigh => regStep_of_top_one hn hhigh hr gv b,
    regStep_lt hgv⟩

/-- The generator 0 makes the XOR a no-op (R105(c), R122(d)). -/
theorem regStep_zero_generator (n r : Nat) (b : Bool) : regStep n 0 r b = (2 * r + b.toNat) % 2 ^ n := by
  simp only [regStep, shift_or_and_mask, Nat.xor_zero, ite_self]

/-- A register of one bit (R105(b)). -/
theorem regStep_one_bit (g r b : Bool) : regStep 1 g.toNat r.toNat b = (b ^^ (r && g)).toNat := by
  cases g <;> cases r <;> cases b <;> rfl

/-- A 0 bit leaves the empty register empty (R105(e)). -/
theorem regStep_zero_false (n gv : Nat) : regStep n gv 0 false = 0 := by simp [regStep]

theorem regRem_one_bit (g : Bool) (m : Bits) :
    regRem [g] m = (m.foldl (fun r b => b ^^ (r && g)) false).toNat := by
  induction m using List.reverseRecOn with
  | nil => rfl
  | append_singleton m b ih =>
    have hval : val [g] = g.toNat := by simp [val]
    rw [regRem_append_singleton, ih, hval, List.length_singleton, regStep_one_bit, List.foldl_append,
      List.foldl_cons, List.foldl_nil]

theorem val_append (a b : Bits) : val (a ++ b) = 2 ^ b.length * val a + val b := by
  induction b using List.reverseRecOn with
  | nil => simp
  | append_singleton b x ih =>
    rw [← List.append_assoc, val_append_singleton, val_append_singleton, ih, List.length_append,
      List.length_singleton, Nat.pow_succ]
    ring

theorem val_zeros (k : Nat) : val (zeros k) = 0 := by
  induction k with
  | zero => rfl
  | succ k ih => rw [zeros, List.replicate_succ', val_append_singleton, ← zeros, ih]; rfl

/-- The last `n` bits are the low `n` bits (R11). -/
theorem val_drop_eq_mod (m : Bits) (n : Nat) : val (m.drop (m.length - n)) = val m % 2 ^ n := by
  have hlen : (m.drop (m.length - n)).length = min m.length n := by rw [List.length_drop]; omega
  have hlt : val (m.drop (m.length - n)) < 2 ^ min m.length n := hlen ▸ val_lt _
  rcases Nat.le_total m.length n with h | h
  · have hm : val m < 2 ^ n := (val_lt m).trans_le (Nat.pow_le_pow_right (by decide) h)
    rw [Nat.sub_eq_zero_of_le h, List.drop_zero, Nat.mod_eq_of_lt hm]
  · rw [Nat.min_eq_right h] at hlen hlt
    conv_rhs => rw [← List.take_append_drop (m.length - n) m, val_append, hlen]
    rw [Nat.mul_add_mod, Nat.mod_eq_of_lt hlt]

/-- With an all-zero generator the register only shifts (R105(c)). -/
theorem regRem_zeros_generator (n : Nat) (m : Bits) : regRem (zeros n) m = val m % 2 ^ n := by
  induction m using List.reverseRecOn with
  | nil => simp
  | append_singleton m b ih =>
    rw [regRem_append_singleton, ih, val_zeros, zeros_length, regStep_zero_generator, val_append_singleton]
    simp [Nat.add_mod, Nat.mul_mod]

/-- Before `n` bits are taken the top bit is 0 whenever it is tested (R105(d)). -/
theorem regRem_of_length_le {gen m : Bits} (h : m.length ≤ gen.length) : regRem gen m = val m := by
  induction m using List.reverseRecOn with
  | nil => rfl
  | append_singleton m b ih =>
    rw [List.length_append, List.length_singleton] at h
    have hlow : val m < 2 ^ (gen.length - 1) :=
      (val_lt m).trans_le (Nat.pow_le_pow_right (by decide) (by omega))
    rw [regRem_append_singleton, ih (by omega), val_append_singleton]
    exact regStep_of_top_zero (by omega) hlow _ b

/-- Leading 0 bits leave the register empty (R105(e)). -/
theorem regRem_zeros_append (gen : Bits) (k : Nat) (m : Bits) : regRem gen (zeros k ++ m) = regRem gen m := by
  induction k with
  | zero => rfl
  | succ k ih =>
    rw [regRem, zeros, List.replicate_succ, List.cons_append, List.foldl_cons, regStep_zero_false]
    exact ih

theorem bytesToBits_replicate_zero (k : Nat) : bytesToBits (List.replicate k 0) = zeros (8 * k) := by
  induction k with
  | zero => rfl
  | succ k ih =>
    have hbyte : byteBits 0 = zeros 8 := by decide
    rw [List.replicate_succ, bytesToBits_cons, ih, hbyte, zeros, zeros, zeros, ← List.replicate_add, Nat.mul_succ,
      Nat.add_comm]

/-- Settles O12: R105(a) to (e), each by its own lemma on the register. -/
theorem registerModeCornerCases : Obligations.RegisterModeCornerCases := by
  refine ⟨regRem_nil, fun m => ?parity, fun m => ?last, fun n m _ => ?shift, fun _ _ => regRem_of_length_le,
    fun gen k d => ?leading⟩
  case parity =>
    simp only [regRem_one_bit, Bool.and_true, Bool.xor_comm]
  case last =>
    rw [regRem_one_bit]
    induction m using List.reverseRecOn with
    | nil => rfl
    | append_singleton m b _ => simp
  case shift => rw [regRem_zeros_generator, val_drop_eq_mod]
  case leading => rw [bytesToBits_append, bytesToBits_replicate_zero, regRem_zeros_append]

end Sys2Proof.Machine

/-! ### Codewords and single-bit errors -/

namespace Sys2Proof

open Polynomial

/-- The constant coefficient is the last bit. -/
theorem coeff_zero_poly (b : Bits) : (poly b).coeff 0 = if b.getLastD false then 1 else 0 := by
  induction b using List.reverseRecOn with
  | nil => simp
  | append_singleton b x _ =>
    rw [poly_append, coeff_add, List.length_singleton, pow_one, coeff_mul_X_zero, zero_add]
    cases x <;> simp [poly_cons]

/-- An error at position `i` adds one power of `x` (R113). -/
theorem poly_set_not {b : Bits} {i : Nat} (hi : i < b.length) :
    poly (b.set i (!b.getD i false)) = poly b + X ^ (b.length - 1 - i) := by
  induction b generalizing i with
  | nil => exact absurd hi (Nat.not_lt_zero i)
  | cons x b ih =>
    cases i with
    | zero =>
      have hflip : (if !x then X ^ b.length else 0 : Polynomial (ZMod 2)) =
          (if x then X ^ b.length else 0) + X ^ b.length := by
        cases x <;> simp [CharTwo.add_self_eq_zero]
      simp only [List.set_cons_zero, List.getD_cons_zero, poly_cons, hflip, List.length_cons, Nat.add_sub_cancel,
        Nat.sub_zero]
      ring
    | succ i =>
      have hpos : b.length + 1 - 1 - (i + 1) = b.length - 1 - i := by omega
      rw [List.set_cons_succ, List.getD_cons_succ, poly_cons, poly_cons, List.length_set,
        ih (by simpa using hi), List.length_cons, hpos, add_assoc]

/-- A divisor of positive degree with constant coefficient 1 divides no power of `x` (R113). -/
theorem not_dvd_X_pow {G : Polynomial (ZMod 2)} (hdeg : G.degree ≠ 0) (h0 : G.coeff 0 ≠ 0) (k : Nat) :
    ¬ G ∣ X ^ k := by
  intro hdvd
  obtain ⟨i, -, hassoc⟩ := (dvd_prime_pow prime_X k).1 hdvd
  cases i with
  | zero =>
    rw [pow_zero, associated_one_iff_isUnit] at hassoc
    exact hdeg (degree_eq_zero_of_isUnit hassoc)
  | succ i =>
    have hX : X ∣ G := (Dvd.intro_left (X ^ i) (pow_succ X i).symm).trans hassoc.symm.dvd
    exact h0 (X_dvd_iff.1 hX)

end Sys2Proof

namespace Sys2Proof.Machine

open Sys2Proof

/-- A generator with first bit 1 is that bit and the rest. -/
theorem eq_true_cons {gen : Bits} (h : gen.getD 0 false = true) : ∃ g, gen = true :: g := by
  cases gen with
  | nil => cases h
  | cons x g => exact ⟨g, by rw [← show x = true from h]⟩

/-- Settles O14: by `longDiv_eq`. -/
theorem longDivisionClearsQuotientBits : Obligations.LongDivisionClearsQuotientBits := by
  intro gen w hgen hw
  obtain ⟨g, rfl⟩ := eq_true_cons hgen
  rw [List.length_cons, Nat.add_sub_cancel] at hw ⊢
  obtain ⟨rest, hdiv, hlen, _⟩ := longDiv_eq hw
  rw [hdiv]
  refine ⟨?_, List.take_left' (zeros_length _)⟩
  rw [List.length_append, zeros_length, hlen, Nat.sub_add_cancel hw]

/-- The remainder is zero exactly when `poly(gen)` divides the padded message (R109, R111). -/
theorem exactRem_eq_zeros_iff (g msg : Bits) :
    exactRem (true :: g) msg = zeros g.length ↔
      poly (true :: g) ∣ poly msg * Polynomial.X ^ g.length := by
  obtain ⟨hlen, hdvd⟩ := exactRem_spec g msg
  constructor
  · intro h
    simpa only [h, poly_zeros, add_zero] using hdvd
  · intro h
    have hrem : poly (true :: g) ∣ poly (exactRem (true :: g) msg) := (dvd_add_right h).1 hdvd
    have hdeg : (poly (exactRem (true :: g) msg)).degree < (poly (true :: g)).degree := by
      rw [poly_true_cons, degree_X_pow_add_poly, ← hlen]
      exact degree_poly_lt _
    have hzero := Polynomial.eq_zero_of_dvd_of_degree_lt hrem hdeg
    exact poly_injective (by simp [hlen]) (hzero.trans (poly_zeros _).symm)

/-- A codeword is a multiple of `poly(gen)` (R112). -/
theorem dvd_poly_codeword (g msg : Bits) : poly (true :: g) ∣ poly (msg ++ exactRem (true :: g) msg) := by
  obtain ⟨hlen, hdvd⟩ := exactRem_spec g msg
  rwa [poly_append, hlen]

/-- What `CRCENC` accepts, and what it answers (R110). -/
theorem crcEnc_ok {p : Config.Params} {gen msg cw : Bits} (h : crcEnc p gen msg = .ok cw) :
    divGenOK p gen = true ∧ (∃ g, gen = true :: g) ∧ cw = msg ++ exactRem gen msg := by
  cases hgen : divGenOK p gen with
  | false => rw [(exactDivision_error hgen msg).2.1] at h; cases h
  | true =>
    rw [(exactDivision_ok hgen msg).2.1] at h
    cases h
    exact ⟨rfl, eq_true_cons (divGenOK_iff.1 hgen).1, rfl⟩

/-- Settles O16: a codeword is a multiple of `poly(gen)`, and so is every shift of it. -/
theorem codewordsVerify : Obligations.CodewordsVerify := by
  intro p gen msg cw h
  obtain ⟨hok, ⟨g, rfl⟩, rfl⟩ := crcEnc_ok h
  obtain ⟨-, -, hvfy⟩ := exactDivision_ok hok (msg ++ exactRem (true :: g) msg)
  have hzero := (exactRem_eq_zeros_iff g _).2 ((dvd_poly_codeword g msg).mul_right _)
  rw [hvfy, hzero, allZero_iff.2 (by rw [zeros_length])]
  rfl

/-- Settles O17: the remainder is zero only if `poly(gen)` divides the power of `x` that the error adds. -/
theorem singleBitErrorsDetected : Obligations.SingleBitErrorsDetected := by
  intro p gen msg cw i h hlen2 hlast hi
  obtain ⟨hok, ⟨g, rfl⟩, hcw⟩ := crcEnc_ok h
  obtain ⟨-, -, hvfy⟩ := exactDivision_ok hok (cw.set i (!cw.getD i false))
  have hdeg : (poly (true :: g)).degree ≠ 0 := by
    rw [poly_true_cons, degree_X_pow_add_poly]
    rw [List.length_cons] at hlen2
    exact_mod_cast (by omega : g.length ≠ 0)
  have hconst : (poly (true :: g)).coeff 0 ≠ 0 := by
    rw [coeff_zero_poly, hlast]
    exact one_ne_zero
  have hrem : exactRem (true :: g) (cw.set i (!cw.getD i false)) ≠ zeros g.length := by
    rw [ne_eq, exactRem_eq_zeros_iff, poly_set_not hi, add_mul, ← pow_add]
    intro hdvd
    have hcodeword := (hcw ▸ dvd_poly_codeword g msg).mul_right (Polynomial.X ^ g.length)
    exact not_dvd_X_pow hdeg hconst _ ((dvd_add_right hcodeword).1 hdvd)
  have hverdict : allZero (exactRem (true :: g) (cw.set i (!cw.getD i false))) = false := by
    rw [Bool.eq_false_iff, ne_eq, allZero_iff, (exactRem_spec g _).1]
    exact hrem
  exact ⟨_, by rw [hvfy, hverdict], hrem⟩

end Sys2Proof.Machine

/-! ### Raw texts, and the laws of packing -/

namespace Sys2Proof.Machine

open Sys2Proof

theorem mem_removeSpaces {t : Bytes} {b : Byte} : b ∈ removeSpaces t ↔ b ∈ t ∧ b ≠ 0x20 := by
  simp [removeSpaces]

/-- `isRaw` by the bytes of the text (R120, R121). -/
theorem isRaw_iff {t : Bytes} :
    isRaw t = true ↔ (∃ b ∈ t, b ≠ 0x20) ∧ ∀ b ∈ t, b = 0x20 ∨ b = 0x30 ∨ b = 0x31 := by
  have hnonempty : (!(removeSpaces t).isEmpty) = true ↔ ∃ b ∈ t, b ≠ 0x20 := by
    rw [Bool.not_eq_true', List.isEmpty_eq_false_iff_exists_mem]
    simp only [mem_removeSpaces]
  have hdigits : (removeSpaces t).all (fun b => b == 0x30 || b == 0x31) = true ↔
      ∀ b ∈ t, b = 0x20 ∨ b = 0x30 ∨ b = 0x31 := by
    simp only [List.all_eq_true, mem_removeSpaces, Bool.or_eq_true, beq_iff_eq, and_imp, or_iff_not_imp_left,
      ne_eq]
  simp only [isRaw, Bool.and_eq_true, hnonempty, hdigits]

/-- Settles O22: by `isRaw_iff`. -/
theorem classifyAnswers : Obligations.ClassifyAnswers := by
  intro t s hfit
  exact ⟨_, pureOp_ok _ hfit (buffersFit_zero _), ⟨rfl, rfl⟩, isRaw_iff⟩

/-- Settles O23: by `isRaw_iff`. -/
theorem textToPayloadAnswers : Obligations.TextToPayloadAnswers := by
  intro t s hfit
  refine ⟨_, pureOp_ok _ hfit (buffersFit_zero _), ⟨rfl, rfl⟩, fun hraw => ?_, fun hother => ?_⟩
  · have hbits : rawBits t = (t.filter (· ≠ 0x20)).map (· == 0x31) := by
      simp only [rawBits, removeSpaces, bne, ne_eq, decide_not, beq_eq_decide]
    rw [← hbits]
    exact if_pos (isRaw_iff.2 hraw)
  · refine if_neg fun h => ?_
    obtain ⟨⟨b, hb, hne⟩, hall⟩ := isRaw_iff.1 h
    rcases hother with hspaces | ⟨c, hc, h20, h30, h31⟩
    · exact hne (hspaces b hb)
    · rcases hall c hc with h | h | h
      · exact h20 h
      · exact h30 h
      · exact h31 h

/-- A byte is told by its bits (R52). -/
theorem byteBits_injective {a b : Byte} (h : byteBits a = byteBits b) : a = b := by
  have hval := congrArg val h
  rw [byteBits, byteBits, val_bitsN a.isLt, val_bitsN b.isLt] at hval
  exact BitVec.eq_of_toNat_eq hval

/-- Unpacking loses nothing (R117). -/
theorem bytesToBits_injective {as bs : Bytes} (h : bytesToBits as = bytesToBits bs) : as = bs := by
  have hlen : as.length = bs.length := by
    have := congrArg List.length h
    rw [bytesToBits_length, bytesToBits_length] at this
    omega
  induction as generalizing bs with
  | nil => exact (List.length_eq_zero_iff.1 hlen.symm).symm
  | cons a as ih =>
    obtain _ | ⟨b, bs⟩ := bs
    · cases hlen
    · rw [bytesToBits_cons, bytesToBits_cons] at h
      obtain ⟨hbyte, hrest⟩ := List.append_inj h (by rw [byteBits_length, byteBits_length])
      rw [byteBits_injective hbyte, ih hrest (Nat.succ.inj hlen)]

/-- Unpacking a packed sequence gives it with its padding (R119). -/
theorem bytesToBits_bitsToBytes (b : Bits) : bytesToBits (bitsToBytes b) = b ++ zeros (padLen b.length) := by
  have hlen : (bytesToBits (bitsToBytes b)).length = (b ++ zeros (padLen b.length)).length := by
    rw [bytesToBits_length, bitsToBytes_length, padded_length]
  refine List.ext_getElem hlen fun n hn hn' => ?_
  have hbyte : n / 8 < (bitsToBytes b).length := by rw [bytesToBits_length] at hn; omega
  have hbit : n % 8 < 8 := Nat.mod_lt n (by decide)
  calc (bytesToBits (bitsToBytes b))[n]
      = (bytesToBits (bitsToBytes b)).getD (8 * (n / 8) + n % 8) false := by
        rw [Nat.div_add_mod, List.getD_eq_getElem]
    _ = b.getD (8 * (n / 8) + n % 8) false := by
        rw [bytesToBits_getD hbyte hbit, bitsToBytes_getLsbD hbyte hbit]
    _ = (b ++ zeros (padLen b.length))[n] := by
        rw [Nat.div_add_mod, ← append_zeros_getD b (padLen b.length), List.getD_eq_getElem]

/-- Whole bytes need no padding, so packing undoes unpacking (R119). -/
theorem bitsToBytes_bytesToBits (bs : Bytes) : bitsToBytes (bytesToBits bs) = bs := by
  have hpad : padLen (bytesToBits bs).length = 0 := by rw [bytesToBits_length, padLen]; omega
  apply bytesToBits_injective
  rw [bytesToBits_bitsToBytes, hpad]
  exact List.append_nil _

/-- Settles O21: the two laws, and both sequences evaluated to `D0`. -/
theorem packingLaws : Obligations.PackingLaws :=
  ⟨bitsToBytes_bytesToBits, bytesToBits_bitsToBytes, by decide⟩

end Sys2Proof.Machine

/-! ### The trace of a division -/

namespace Sys2Proof.Machine

open Sys2Proof

/-- `W` when position `i` is visited; it starts as the padded message (R106, R107, R115). -/
def bufferAt (gen msg : Bits) (i : Nat) : Bits :=
  (List.range i).foldl (divStep gen) (msg ++ zeros (gen.length - 1))

/-- The positions below `k` whose working bit is 1 when they are visited, in rising order (R116). -/
def xoredPositions (gen msg : Bits) (k : Nat) : List Nat :=
  (List.range k).filter fun i => (bufferAt gen msg i).getD i false

/-- The record of an XOR at position `i` of the working buffer `w` (R116). -/
def recordAt (gen w : Bits) (i : Nat) : TraceRecord :=
  let seg := (w.drop i).take gen.length
  { position := i, segment := seg, generator := gen, result := List.zipWith (· ^^ ·) seg gen }

/-- One record for each of the first `k` positions that is XORed (R116). -/
def recordsBelow (gen msg : Bits) (k : Nat) : List TraceRecord :=
  (xoredPositions gen msg k).map fun i => recordAt gen (bufferAt gen msg i) i

theorem bufferAt_succ (gen msg : Bits) (i : Nat) :
    bufferAt gen msg (i + 1) = divStep gen (bufferAt gen msg i) i := by
  rw [bufferAt, List.range_succ, List.foldl_append]
  rfl

theorem bufferAt_length (gen msg : Bits) (i : Nat) :
    (bufferAt gen msg i).length = msg.length + (gen.length - 1) := by
  induction i with
  | zero => rw [bufferAt, List.range_zero, List.foldl_nil, List.length_append, zeros_length]
  | succ i ih => rw [bufferAt_succ, divStep_length, ih]

theorem xoredPositions_succ (gen msg : Bits) (k : Nat) :
    xoredPositions gen msg (k + 1) =
      xoredPositions gen msg k ++ if (bufferAt gen msg k).getD k false then [k] else [] := by
  simp only [xoredPositions, List.range_succ, List.filter_append, List.filter_singleton, Bool.cond_eq_ite]

theorem mem_xoredPositions {gen msg : Bits} {k i : Nat} :
    i ∈ xoredPositions gen msg k ↔ i < k ∧ (bufferAt gen msg i).getD i false = true := by
  simp only [xoredPositions, List.mem_filter, List.mem_range]

theorem positions_recordsBelow (gen msg : Bits) (k : Nat) :
    (recordsBelow gen msg k).map TraceRecord.position = xoredPositions gen msg k :=
  (List.map_map ..).trans (List.map_id _)

theorem mem_recordsBelow {gen msg : Bits} {k : Nat} {e : TraceRecord} :
    e ∈ recordsBelow gen msg k ↔
      ∃ i, i ∈ xoredPositions gen msg k ∧ recordAt gen (bufferAt gen msg i) i = e :=
  List.mem_map

/-- The XOR of `LongDiv` is that of `DIVTRC`, bitwise on a window as long as the generator (R106, R115). -/
theorem xorOnto_eq_zipWith {g w : Bits} (h : g.length ≤ w.length) :
    xorOnto g w = List.zipWith (· ^^ ·) (w.take g.length) g ++ w.drop g.length := by
  induction g generalizing w with
  | nil => simp [xorOnto]
  | cons x g ih =>
    obtain _ | ⟨b, w⟩ := w
    · simp at h
    · simp [xorOnto, ih (w := w) (by simpa using h)]

/-- One position of `DIVTRC`: the buffer goes on as in `LongDiv`, and a record is kept iff there is an XOR (R115). -/
theorem traceStep_eq {gen w : Bits} {i : Nat} (h : i + gen.length ≤ w.length) (t : List TraceRecord) :
    traceStep gen (w, t) i =
      (divStep gen w i, t ++ if w.getD i false then [recordAt gen w i] else []) := by
  cases hbit : w.getD i false with
  | false => simp only [traceStep, divStep, hbit, Bool.false_eq_true, if_false, List.append_nil]
  | true =>
    have hxor := xorOnto_eq_zipWith (g := gen) (w := w.drop i) (by rw [List.length_drop]; omega)
    simp only [traceStep, divStep, hbit, if_true, xorWindow, hxor, recordAt, List.drop_drop, List.append_assoc]

/-- What `DIVTRC` holds after `k` positions: the buffer of `LongDiv`, and one record per XOR so far (R115, R116). -/
theorem foldl_traceStep (gen : Bits) {msg : Bits} {k : Nat} (h : k ≤ msg.length) :
    (List.range k).foldl (traceStep gen) (msg ++ zeros (gen.length - 1), []) =
      (bufferAt gen msg k, recordsBelow gen msg k) := by
  induction k with
  | zero => rfl
  | succ k ih =>
    have hwindow : k + gen.length ≤ (bufferAt gen msg k).length := by rw [bufferAt_length]; omega
    rw [List.range_succ, List.foldl_append, ih (by omega), List.foldl_cons, List.foldl_nil, traceStep_eq hwindow,
      bufferAt_succ, recordsBelow, recordsBelow, xoredPositions_succ, List.map_append]
    split_ifs <;> rfl

/-- `ExactRem` is read off the buffer after the last position (R107). -/
theorem exactRem_eq_bufferAt (gen msg : Bits) :
    exactRem gen msg = ((bufferAt gen msg msg.length).drop msg.length).take (gen.length - 1) := by
  rw [exactRem, longDiv, List.length_append, zeros_length, Nat.add_sub_cancel]
  rfl

/-- `DIVTRC` with an acceptable generator: the records of all positions, and the remainder of `CRCDIV` (R115). -/
theorem divTrc_ok {p : Config.Params} {gen : Bits} (h : divGenOK p gen = true) (msg : Bits) :
    divTrc p gen msg = .ok (recordsBelow gen msg msg.length, exactRem gen msg) := by
  rw [divTrc, if_pos h, divTrace, foldl_traceStep gen le_rfl, exactRem_eq_bufferAt]

/-- A record of an XOR: a full window whose first bit is 1, and is 0 after it (R116). -/
theorem recordAt_window {gen w : Bits} {i : Nat} (hgen : gen.getD 0 false = true)
    (h : i + gen.length ≤ w.length) (hbit : w.getD i false = true) :
    (recordAt gen w i).segment.length = gen.length ∧ (recordAt gen w i).segment.getD 0 false = true ∧
      (recordAt gen w i).result.getD 0 false = false := by
  obtain ⟨g, rfl⟩ := eq_true_cons hgen
  have hi : i < w.length := by rw [List.length_cons] at h; omega
  have hdrop : w.drop i = true :: w.drop (i + 1) := by
    rw [List.drop_eq_getElem_cons hi, ← List.getD_eq_getElem w false hi, hbit]
  have hlen : (recordAt (true :: g) w i).segment.length = (true :: g).length := by
    rw [recordAt, List.length_take, List.length_drop]
    omega
  refine ⟨hlen, ?_, ?_⟩ <;> simp only [recordAt, hdrop] <;> rfl

/-- Settles O18: `DIVTRC` keeps one record for each position XORed (`divTrc_ok`). -/
theorem traceNarratesTheDivision : Obligations.TraceNarratesTheDivision := by
  intro gen msg s hfit htrace
  have hexec : exec (.divtrc gen msg) s = pureOp s (divOperands gen msg) 0 (divWork gen msg)
      ((divTrc s.params gen msg).map fun v r => { r with trace := v.1, bits := v.2 }) := if_pos htrace
  rw [hexec]
  refine ⟨fun hgen hwork => ?_, fun hgen => ?_⟩
  · refine ⟨_, bufferAt gen msg, pureOp_map_ok (divTrc_ok hgen msg) hfit hwork, ⟨rfl, rfl⟩, rfl, rfl,
      bufferAt_succ gen msg, ?rising, fun i => ?positions, fun e he => ?record⟩
    case rising =>
      rw [positions_recordsBelow]
      exact List.pairwise_lt_range.filter _
    case positions =>
      rw [← mem_xoredPositions, ← positions_recordsBelow, List.mem_map]
    case record =>
      obtain ⟨i, hi, rfl⟩ := mem_recordsBelow.1 he
      obtain ⟨hlt, hbit⟩ := mem_xoredPositions.1 hi
      have hwindow : i + gen.length ≤ (bufferAt gen msg i).length := by rw [bufferAt_length]; omega
      obtain ⟨hlen, hseg, hres⟩ := recordAt_window (divGenOK_iff.1 hgen).1 hwindow hbit
      exact ⟨rfl, rfl, hlen, hseg, hres, rfl⟩
  · have hcomp : divTrc s.params gen msg = .error errDivGen := if_neg (by rw [hgen]; exact Bool.false_ne_true)
    exact ⟨_, pureOp_map_error hcomp hfit, rfl, rfl⟩

end Sys2Proof.Machine

/-! ### A frame that is built parses back -/

namespace Sys2Proof.Machine

open Sys2Proof

/-- The fields of the frame that `BLDDATA` and `BLDACK` build (R131, R132, R134, R135). -/
def builtFields (gen : Bits) (t : Byte) (seq : Nat) (payload : Bytes) : Fields where
  version := Config.version
  type := t
  seq := BitVec.ofNat 8 (seq % 256)
  length := BitVec.ofNat 16 payload.length
  payload := payload
  checksum := checksum gen (header t seq payload.length ++ payload)

theorem builtFields_length {payload : Bytes} (h : payload.length ≤ 65535) (gen : Bits) (t : Byte) (seq : Nat) :
    (builtFields gen t seq payload).length.toNat = payload.length := by
  rw [builtFields, BitVec.toNat_ofNat]
  omega

theorem builtFields_seq (gen : Bits) (t : Byte) (seq : Nat) (payload : Bytes) :
    (builtFields gen t seq payload).seq.toNat = seq % 256 := by
  rw [builtFields, BitVec.toNat_ofNat]
  omega

/-- The header written is the header that `PARSE` recomputes the checksum over (R131, R136). -/
theorem fieldsHeader_builtFields {payload : Bytes} (h : payload.length ≤ 65535) (gen : Bits) (t : Byte) (seq : Nat) :
    fieldsHeader (builtFields gen t seq payload) = header t seq payload.length := by
  rw [fieldsHeader, builtFields_length h]
  rfl

theorem matchFlag_self (c : Byte) : matchFlag c c = true := beq_self_eq_true c

/-- The checksum of a built frame matches (R132, R136). -/
theorem checkFrame_builtFields {payload : Bytes} (h : payload.length ≤ 65535) (gen : Bits) (t : Byte) (seq : Nat) :
    (checkFrame gen (builtFields gen t seq payload)).matchFlag = true := by
  rw [checkFrame, fieldsHeader_builtFields h]
  exact matchFlag_self _

/-- A header, a payload that fits and their checksum are a frame with the fields it was built from (R138). -/
theorem parseFields_built {payload : Bytes} (h : payload.length ≤ 65535) (gen : Bits) (t : Byte) (seq : Nat) :
    parseFields (header t seq payload.length ++ payload ++
        [checksum gen (header t seq payload.length ++ payload)]) = .ok (builtFields gen t seq payload) := by
  have hparse := parseFields_frameBytes Config.version t (builtFields gen t seq payload).seq
    (builtFields gen t seq payload).checksum (builtFields_length h gen t seq)
  rwa [frameBytes, builtFields_length h] at hparse

theorem parseFields_dataFrame {payload : Bytes} (h : payload.length ≤ 65535) (gen : Bits) (seq : Nat) :
    parseFields (dataFrame gen payload seq) = .ok (builtFields gen Config.typeData seq payload) :=
  parseFields_built h gen Config.typeData seq

theorem parseFields_ackFrame (gen : Bits) (seq : Nat) (positive : Bool) :
    parseFields (ackFrame gen seq positive) =
      .ok (builtFields gen (if positive then Config.typeAck else Config.typeNack) seq []) := by
  have hempty : ([] : Bytes).length ≤ 65535 := Nat.zero_le _
  have hparse := parseFields_built hempty gen (if positive then Config.typeAck else Config.typeNack) seq
  simpa [ackFrame] using hparse

/-- Settles O27: `PARSE` finds the fields the frame was built from, and their checksum matches. -/
theorem frameRoundTrip : Obligations.FrameRoundTrip := by
  intro gen seq h1 h8
  have hgen := frameGenOK_eq_true h1 h8
  refine ⟨fun payload hlen => ?_, fun positive => ?_⟩
  · have hbld : bldData gen payload seq = .ok (dataFrame gen payload seq) := by
      simp [bldData, hgen, Config.maxPayload, Nat.not_lt.2 hlen]
    exact ⟨_, _, hbld, parseFrame_ok hgen (parseFields_dataFrame hlen gen seq), checkFrame_builtFields hlen gen _ seq,
      rfl, rfl, builtFields_seq gen _ seq payload, builtFields_length hlen gen _ seq, rfl⟩
  · have hbld : bldAck gen seq positive = .ok (ackFrame gen seq positive) := by simp [bldAck, hgen]
    exact ⟨_, _, hbld, parseFrame_ok hgen (parseFields_ackFrame gen seq positive),
      checkFrame_builtFields (Nat.zero_le _) gen _ seq, rfl, rfl, builtFields_seq gen _ seq [], rfl, rfl⟩

end Sys2Proof.Machine

/-! ### `X.PARSE` on a frame of a wire operation -/

namespace Sys2Proof.Machine

open Sys2Proof

/-- A wire operation whose context is in `Parse` takes `X.PARSE` (R171). -/
theorem wireOp_parse {s : State} {c : Context} (hc : s.context s.cur = some c) (hp : c.step = .parse)
    (f : Fields) (next : Frame → CtxStep) : wireOp f next s = .next (xParse s.cur c f next s) :=
  wireOp_next.2 ⟨c, hc, (if_pos hp).symm⟩

theorem State.putContext_eq (s : State) (k : Nat) (c : Context) :
    s.putContext k c = { s with rxc := (s.putContext k c).rxc } := by
  unfold State.putContext
  split_ifs <;> rfl

/-- While `CFG_FAULT = 0`, `X.PARSE` stores the checked frame in its context and moves the context on (R172). -/
theorem xParse_of_configured {s : State} (hf : s.cfgFault = false) (k : Nat) (c : Context) (f : Fields)
    (next : Frame → CtxStep) : xParse k c f next s =
      s.putContext k { c with frame := checkFrame s.cfgGen.bits f, step := next (checkFrame s.cfgGen.bits f) } :=
  if_neg (by simp [hf])

/-- While `CFG_FAULT = 1`, `X.PARSE` ends its context with `EV_CONFIG(1)` (R171). -/
theorem xParse_of_cfgFault {s : State} (hf : s.cfgFault = true) (k : Nat) (c : Context) (f : Fields)
    (next : Frame → CtxStep) : xParse k c f next s = (s.emit (.evt evConfig)).endContext k :=
  if_pos hf

/-- What `X.PARSE` does while `CFG_FAULT = 0`, and what it leaves unchanged (R172). -/
theorem xParse_stores {s : State} {k : Nat} {c : Context} {f : Fields} {next : Frame → CtxStep}
    (hf : s.cfgFault = false) (hnext : next (checkFrame s.cfgGen.bits f) ≠ .done) :
    xParse k c f next s = { s with rxc := (xParse k c f next s).rxc } ∧
      (xParse k c f next s).context k =
        some { c with frame := checkFrame s.cfgGen.bits f, step := next (checkFrame s.cfgGen.bits f) } ∧
      ∀ j, j ≠ k → (xParse k c f next s).context j = s.context j := by
  rw [xParse_of_configured hf]
  exact ⟨s.putContext_eq k _, s.context_putContext_self k _ hnext, fun j hj => s.context_putContext_ne _ hj⟩

/-- What `X.PARSE` does while `CFG_FAULT = 1`, and what it leaves unchanged (R171). -/
theorem xParse_endsContext {s : State} (hr : s.ContextsRising) (hf : s.cfgFault = true) (k : Nat) (c : Context)
    (f : Fields) (next : Frame → CtxStep) :
    xParse k c f next s =
        { s with rxc := (xParse k c f next s).rxc, out := s.out ++ [.evt { code := 0x05, arg := 1 }] } ∧
      (xParse k c f next s).context k = none ∧
      ∀ j, j ≠ k → (xParse k c f next s).context j = s.context j := by
  rw [xParse_of_cfgFault hf]
  exact ⟨rfl, State.context_endContext_self _ k hr, fun j hj => State.context_endContext_ne _ hj⟩

/-- The dispatch of a DATA frame by its match flag never ends the context (R172). -/
theorem dataDispatch_ne_done (m : Bool) : (if m then CtxStep.testInsert else .nack) ≠ .done := by
  cases m <;> simp

/-- Settles O47: each of the three runs `X.PARSE`, which stores its frame (`xParse_stores`) or ends its context
(`xParse_endsContext`). -/
theorem wireOperationsDispatch : Obligations.WireOperationsDispatch := by
  intro v q n p cs s c hrising hc hp
  refine ⟨_, _, _, wireOp_parse hc hp _ _, wireOp_parse hc hp _ _, wireOp_parse hc hp _ _, fun hf => ?_,
    fun hf => ?_⟩
  · obtain ⟨hd, hdata, hdj⟩ := xParse_stores (k := s.cur) (c := c) (f := ⟨v, Config.typeData, q, n, p, cs⟩)
      (next := fun fr => if fr.matchFlag then .testInsert else .nack) hf (dataDispatch_ne_done _)
    have hreply (t : Byte) := xParse_stores (k := s.cur) (c := c) (f := ⟨v, t, q, n, p, cs⟩)
      (next := fun _ => .ackNack) hf CtxStep.noConfusion
    obtain ⟨ha, hack, haj⟩ := hreply Config.typeAck
    obtain ⟨hn, hnack, hnj⟩ := hreply Config.typeNack
    exact ⟨hd, ha, hn, ⟨_, rfl, hdata⟩, ⟨_, rfl, hack⟩, ⟨_, rfl, hnack⟩,
      fun j hj => ⟨hdj j hj, haj j hj, hnj j hj⟩⟩
  · have hends (g : Fields) (next : Frame → CtxStep) := xParse_endsContext hrising hf s.cur c g next
    exact List.forall_mem_cons.2 ⟨hends _ _, List.forall_mem_cons.2 ⟨hends _ _,
      List.forall_mem_singleton.2 (hends _ _)⟩⟩

end Sys2Proof.Machine

/-! ### The sender's steps by their guards -/

namespace Sys2Proof.Machine

open Sys2Proof

/-- A `SEND` whose operand fits takes `S.START` (R152). -/
theorem exec_send {bytes : Bytes} {s : State} (h : buffersFit s.params 0 bytes.length = true) (isText : Bool) :
    exec (.send bytes isText) s = .next (sStart bytes isText s) :=
  if_pos h

theorem sStart_of_busy {s : State} (hphase : s.phase ≠ .idle) (bytes : Bytes) (isText : Bool) :
    sStart bytes isText s = s.raise errBusy :=
  if_pos hphase

theorem sStart_of_idle {s : State} (hphase : s.phase = .idle) (bytes : Bytes) (isText : Bool) :
    sStart bytes isText s =
      if s.cfgFault then s.raise errFrameGen
      else if Config.maxPayload < (sendPayload bytes isText).length then (sAlloc s).raise errLength
      else sRegister (sBuild (sendPayload bytes isText) (sAlloc s)) :=
  if_neg (not_not.2 hphase)

theorem sStart_of_cfgFault {s : State} (hphase : s.phase = .idle) (hfault : s.cfgFault = true) (bytes : Bytes)
    (isText : Bool) : sStart bytes isText s = s.raise errFrameGen := by
  rw [sStart_of_idle hphase, if_pos hfault]

theorem sStart_of_tooLong {s : State} {bytes : Bytes} {isText : Bool} (hphase : s.phase = .idle)
    (hfault : s.cfgFault = false) (hlen : 65535 < (sendPayload bytes isText).length) :
    sStart bytes isText s = (sAlloc s).raise errLength := by
  rw [sStart_of_idle hphase, if_neg (by simp [hfault])]
  exact if_pos hlen

theorem sStart_of_fits {s : State} {bytes : Bytes} {isText : Bool} (hphase : s.phase = .idle)
    (hfault : s.cfgFault = false) (hlen : (sendPayload bytes isText).length ≤ 65535) :
    sStart bytes isText s = sRegister (sBuild (sendPayload bytes isText) (sAlloc s)) := by
  rw [sStart_of_idle hphase, if_neg (by simp [hfault])]
  exact if_neg (Nat.not_lt_of_le hlen)

/-- Settles O33: by `sStart_of_fits`. -/
theorem sendStarts : Obligations.SendStarts := by
  intro bytes isText s hfit hphase hfault hlen
  rw [exec_send hfit, sStart_of_fits hphase hfault hlen]
  rfl

/-- Settles O34: each turning away by the branch of `S.START` that makes it. -/
theorem sendTurnedAway : Obligations.SendTurnedAway := by
  intro bytes isText s hfit
  rw [exec_send hfit]
  refine ⟨fun hphase => ?_, fun hphase hfault => ?_, fun hphase hfault hlen => ?_⟩
  · rw [sStart_of_busy hphase]
    exact ⟨_, rfl, rfl, rfl⟩
  · rw [sStart_of_cfgFault hphase hfault]
    exact ⟨_, rfl, rfl, rfl⟩
  · rw [sStart_of_tooLong hphase hfault hlen]
    exact ⟨_, rfl, rfl, rfl⟩

theorem step_txs_sender {s : State} {ok : Bool} (h : s.nextStimulus = .txs (some .sender) ok) :
    step s = .next (senderTxs ok s.popStimulus) := by
  rw [step, h]; rfl

theorem step_tick {s : State} (h : s.nextStimulus = .tick) : step s = .next (tTick s.popStimulus) := by
  rw [step, h]; rfl

/-- The guard of `S.TXS` (R157). -/
theorem senderTxs_awaited {s : State} (hphase : s.phase = .sending) (hpending : s.pr.txPending = true) (ok : Bool) :
    senderTxs ok s = sTxs ok s :=
  if_pos ⟨hphase, hpending⟩

/-- The guard of `S.WAKE` (R158): the timer is not asked. -/
theorem senderStep_wakes {s : State} (hphase : s.phase = .awaitingAck) (hsignal : s.ws.signal = true) :
    senderStep s = sWake s := by
  simp [senderStep, hphase, hsignal]

/-- The guard of `S.TIMEOUT` (R159). -/
theorem senderStep_timesOut {s : State} (hphase : s.phase = .awaitingAck) (hsignal : s.ws.signal = false)
    (htimer : s.timer = 0) : senderStep s = sTimeout s := by
  simp [senderStep, hphase, hsignal, htimer]

/-- With no reply and time left, `SENDER` has no step in `AwaitingAck` (log entry 1). -/
theorem senderStep_waits {s : State} (hphase : s.phase = .awaitingAck) (hsignal : s.ws.signal = false)
    (htimer : s.timer ≠ 0) : senderStep s = s := by
  simp [senderStep, hphase, hsignal, htimer]

/-- The guard of `S.PAUSE_END` (R160). -/
theorem senderStep_pauseEnds {s : State} (hphase : s.phase = .pausing) (htimer : s.timer = 0) :
    senderStep s = sPauseEnd s := by
  simp [senderStep, hphase, htimer]

/-- The guard of `S.FINISH` after a failure (R161). -/
theorem senderStep_finishesFailed {s : State} (hphase : s.phase = .failed) : senderStep s = sFinish s := by
  simp [senderStep, hphase]

/-- `S.PAUSE_END` keeps a reply stored during the pause, unless the pause followed a NACK (R160). -/
theorem sPauseEnd_slot (s : State) :
    (if s.pauseKind then { s.ws with signal := false } else s.ws) =
      { s.ws with signal := s.ws.signal && !s.pauseKind } := by
  cases s.pauseKind <;> simp

/-- `S.PAUSE_END` with a transmission left (R160). -/
theorem sPauseEnd_retries {s : State} (h : s.pr.retriesUsed.toNat < 3) :
    sPauseEnd s =
      { s with ws := { s.ws with signal := s.ws.signal && !s.pauseKind }, phase := .sending } := by
  rw [← sPauseEnd_slot]
  exact if_pos h

/-- `S.PAUSE_END` after the last transmission (R160). -/
theorem sPauseEnd_exhausts {s : State} (h : s.pr.retriesUsed.toNat = 3) :
    sPauseEnd s =
      { s with
        ws := { s.ws with signal := s.ws.signal && !s.pauseKind, result := .failed }
        pr := { s.pr with outcome := .exhausted }
        phase := .failed } := by
  have hslot := congrArg (fun w : WaitSlot => { w with result := .failed }) (sPauseEnd_slot s)
  simp only at hslot
  rw [← hslot]
  exact if_neg (by rw [h]; decide)

/-- A tick of the running timer (R165). -/
theorem tTick_runs {s : State} (hphase : s.phase = .awaitingAck ∨ s.phase = .pausing) (htimer : 0 < s.timer) :
    tTick s = { s with timer := s.timer - 1 } :=
  if_pos ⟨hphase, htimer⟩

/-- A tick while the timer stands still (R165). -/
theorem tTick_stands {s : State} (h : (s.phase ≠ .awaitingAck ∧ s.phase ≠ .pausing) ∨ s.timer = 0) :
    tTick s = s := by
  refine if_neg ?_
  rintro ⟨hphase, htimer⟩
  rcases h with ⟨hawait, hpause⟩ | hzero
  · exact hphase.elim hawait hpause
  · omega

/-- Settles O36: by the two answers of `S.TXS`. -/
theorem senderHearsTheTransport : Obligations.SenderHearsTheTransport := by
  intro s ok hs hphase hpending
  rw [step_txs_sender hs, senderTxs_awaited (by simpa using hphase) (by simpa using hpending)]
  refine ⟨?_, ?_⟩
  · rintro rfl
    simp only [sTxs, if_true, ackTimeoutTicks, State.popStimulus_pr, State.popStimulus_params]
  · rintro rfl
    simp only [sTxs, Bool.false_eq_true, if_false, State.popStimulus_pr, State.popStimulus_ws]

/-- Settles O37: `S.WAKE` by the stored result, `S.TIMEOUT`, and the wait. -/
theorem senderWakesOrTimesOut : Obligations.SenderWakesOrTimesOut := by
  intro s hs hphase
  have hphase' : s.popStimulus.phase = .awaitingAck := by simpa using hphase
  rw [step_run_sender hs]
  refine ⟨fun hsignal hresult => ?_, fun hsignal hresult => ?_, fun hsignal htimer => ?_, fun hsignal htimer => ?_⟩
  · rw [senderStep_wakes hphase' (by simpa using hsignal), sWake, if_pos (by simpa using hresult)]
    simp only [State.popStimulus_pr]
  · rw [senderStep_wakes hphase' (by simpa using hsignal), sWake, if_neg (by simpa using hresult)]
    simp only [retryPauseTicks, State.popStimulus_params]
  · rw [senderStep_timesOut hphase' (by simpa using hsignal) (by simpa using htimer)]
    simp only [sTimeout, retryPauseTicks, State.popStimulus_params, State.popStimulus_ws]
  · rw [senderStep_waits hphase' (by simpa using hsignal) (by simpa using htimer)]

/-- Settles O38: by `sPauseEnd_retries` and `sPauseEnd_exhausts`. -/
theorem pauseEnds : Obligations.PauseEnds := by
  intro s hs hphase htimer
  rw [step_run_sender hs, senderStep_pauseEnds (by simpa using hphase) (by simpa using htimer)]
  refine ⟨fun hretries => ?_, fun hretries => ?_⟩
  · rw [sPauseEnd_retries (by simpa using hretries)]
    simp only [State.popStimulus_ws, State.popStimulus_pauseKind]
  · rw [sPauseEnd_exhausts (by simpa using hretries)]
    simp only [State.popStimulus_ws, State.popStimulus_pauseKind, State.popStimulus_pr]

/-- Settles O40: by `tTick_runs` and `tTick_stands`. -/
theorem timerTicks : Obligations.TimerTicks := by
  intro s hs
  rw [step_tick hs]
  refine ⟨fun hphase htimer => ?_, fun hstands => ?_⟩
  · rw [tTick_runs (by simpa using hphase) (by simpa using htimer)]
    simp only [State.popStimulus_timer]
  · rw [tTick_stands (by simpa using hstands)]

end Sys2Proof.Machine

/-! ### A `SEND` that nobody answers (R163(b)) -/

namespace Sys2Proof.Machine

open Sys2Proof

/-- The state with the stimuli `q` placed in it, and no others. -/
def State.placing (s : State) (q : List Config.Stimulus) : State := { s with sched := q }

theorem State.placing_sched_self (s : State) : s.placing s.sched = s := rfl

/-- The stimuli `xs`, placed in front of whatever follows them, lead from `s` to `t`; what is placed in `s` and `t`
themselves is not looked at. -/
def RunsTo (xs : List Config.Stimulus) (s t : State) : Prop :=
  ∀ rest, Host.Core.run Sys2Proof.core xs.length (s.placing (xs ++ rest)) = .next (t.placing rest)

/-- A run of `m + n` steps is a run of `m` steps followed by one of `n`. -/
theorem run_add {m : Nat} {s t : State} (h : Host.Core.run Sys2Proof.core m s = .next t) (n : Nat) :
    Host.Core.run Sys2Proof.core (m + n) s = Host.Core.run Sys2Proof.core n t := by
  induction m generalizing s with
  | zero =>
    cases h
    rw [Nat.zero_add]
  | succ m ih =>
    rw [Nat.succ_add]
    simp only [Host.Core.run] at h ⊢
    cases hstep : Host.Core.step Sys2Proof.core s with
    | next u =>
      rw [hstep] at h
      exact ih h
    | fault f => simp [hstep] at h
    | refused r => simp [hstep] at h

namespace RunsTo

variable {xs ys : List Config.Stimulus} {s t u : State}

theorem nil (s : State) : RunsTo [] s s := fun _ => rfl

theorem append (hxs : RunsTo xs s t) (hys : RunsTo ys t u) : RunsTo (xs ++ ys) s u := by
  intro rest
  rw [List.length_append, List.append_assoc, run_add (hxs (ys ++ rest))]
  exact hys rest

/-- The stimulus placed first is the one a step takes. -/
theorem of_takeStimulus {x : Config.Stimulus}
    (h : ∀ rest, takeStimulus x (s.placing rest) = .next (t.placing rest)) : RunsTo [x] s t := by
  intro rest
  have hstep : Host.Core.step Sys2Proof.core (s.placing ([x] ++ rest)) = .next (t.placing rest) := h rest
  simp only [List.length_singleton, Host.Core.run, hstep]

theorem of_senderStep (h : ∀ rest, senderStep (s.placing rest) = t.placing rest) : RunsTo [.run .sender] s t :=
  of_takeStimulus fun rest => congrArg _ (h rest)

theorem of_senderTxs {ok : Bool} (h : ∀ rest, senderTxs ok (s.placing rest) = t.placing rest) :
    RunsTo [.txs (some .sender) ok] s t :=
  of_takeStimulus fun rest => congrArg _ (h rest)

theorem of_tTick (h : ∀ rest, tTick (s.placing rest) = t.placing rest) : RunsTo [.tick] s t :=
  of_takeStimulus fun rest => congrArg _ (h rest)

/-- An accepted `SEND` whose payload fits (R152). -/
theorem send {bytes : Bytes} {isText : Bool} (hfit : buffersFit s.params 0 bytes.length = true)
    (hphase : s.phase = .idle) (hfault : s.cfgFault = false) (hlen : (sendPayload bytes isText).length ≤ 65535) :
    RunsTo [.cmd { blankCmd 0x0C with bytes := bytes, flag := isText }] s
      (sRegister (sBuild (sendPayload bytes isText) (sAlloc s))) :=
  of_takeStimulus fun rest => by
    have hcmd : takeStimulus (.cmd { blankCmd 0x0C with bytes := bytes, flag := isText }) (s.placing rest) =
        exec (.send bytes isText) (s.placing rest) :=
      takeCommand_of_decode (c := { blankCmd 0x0C with bytes := bytes, flag := isText }) rfl _
    rw [hcmd, exec_send (s := s.placing rest) hfit, sStart_of_fits (s := s.placing rest) hphase hfault hlen]
    rfl

/-- In a waiting phase the timer runs out after as many ticks as it holds (R165). -/
theorem ticks {n : Nat} (hphase : s.phase = .awaitingAck ∨ s.phase = .pausing) (htimer : s.timer = n) :
    RunsTo (List.replicate n .tick) s { s with timer := 0 } := by
  induction n generalizing s with
  | zero =>
    have hs : { s with timer := 0 } = s := by rw [← htimer]
    rw [hs]
    exact nil s
  | succ n ih =>
    have hpos : 0 < s.timer := by omega
    have hfirst : RunsTo [.tick] s { s with timer := s.timer - 1 } := of_tTick fun _ => tTick_runs hphase hpos
    exact hfirst.append (ih hphase (by simp [htimer]))

end RunsTo

/-- `SENDER` is about to transmit, and no reply is stored. -/
structure ReadyToSend (s : State) : Prop where
  phase : s.phase = .sending
  pending : s.pr.txPending = false
  signal : s.ws.signal = false

/-- The end of the pause of an attempt that got no reply: the frame went out once more, and the timeout is recorded
(R156, R157, R159). -/
def State.unanswered (s : State) : State :=
  { s with
    out := s.out ++ [.tx s.params.peerAddr s.pr.frame]
    pr := { s.pr with retriesUsed := s.pr.retriesUsed + 1, txPending := false }
    ws := { s.ws with result := .timedOut }
    pauseKind := false
    timer := 0
    phase := .pausing }

/-- After an unanswered attempt that leaves another one (R160). -/
def State.retrying (s : State) : State := { s.unanswered with phase := .sending }

/-- After the last unanswered attempt (R160). -/
def State.exhausted (s : State) : State :=
  { s.unanswered with
    ws := { s.ws with result := .failed }
    pr := { s.unanswered.pr with outcome := .exhausted }
    phase := .failed }

theorem State.retrying_retriesUsed (s : State) : s.retrying.pr.retriesUsed = s.pr.retriesUsed + 1 := rfl

theorem ReadyToSend.retrying {s : State} (h : ReadyToSend s) : ReadyToSend s.retrying := ⟨rfl, rfl, h.signal⟩

theorem sPauseEnd_unanswered_retries {s : State} (h : (s.pr.retriesUsed + 1).toNat < 3) :
    sPauseEnd s.unanswered = s.retrying := by
  rw [sPauseEnd_retries (s := s.unanswered) h]
  simp [State.unanswered, State.retrying]

theorem sPauseEnd_unanswered_exhausts {s : State} (h : (s.pr.retriesUsed + 1).toNat = 3) :
    sPauseEnd s.unanswered = s.exhausted := by
  rw [sPauseEnd_exhausts (s := s.unanswered) h]
  simp [State.unanswered, State.exhausted]

/-- An attempt that the transport takes and nobody answers comes to the end of its pause, and ends as
`S.PAUSE_END` ends it (R163(b)). -/
theorem lostAttempt_runsTo {s t : State} (h : ReadyToSend s)
    (hend : ∀ rest, sPauseEnd (s.placing rest).unanswered = t.placing rest) :
    RunsTo (lostAttempt s.params) s t := by
  have htx : RunsTo [.run .sender] s (sTx s) := .of_senderStep fun _ => senderStep_transmits h.phase h.pending
  have htxs : RunsTo [.txs (some .sender) true] (sTx s) (sTxs true (sTx s)) :=
    .of_senderTxs fun rest => senderTxs_awaited (s := (sTx s).placing rest) h.phase rfl true
  have hwait := RunsTo.ticks (s := sTxs true (sTx s)) (.inl rfl) rfl
  have htimeout : RunsTo [.run .sender] { sTxs true (sTx s) with timer := 0 }
      (sTimeout { sTxs true (sTx s) with timer := 0 }) :=
    .of_senderStep fun _ => senderStep_timesOut rfl h.signal rfl
  have hpause := RunsTo.ticks (s := sTimeout { sTxs true (sTx s) with timer := 0 }) (.inr rfl) rfl
  have hpauseEnd : RunsTo [.run .sender] s.unanswered t :=
    .of_senderStep fun rest => (senderStep_pauseEnds rfl rfl).trans (hend rest)
  exact ((((htx.append htxs).append hwait).append htimeout).append hpause).append hpauseEnd

theorem lostAttempt_retries {s : State} (h : ReadyToSend s) (hretries : (s.pr.retriesUsed + 1).toNat < 3) :
    RunsTo (lostAttempt s.params) s s.retrying :=
  lostAttempt_runsTo h fun rest => sPauseEnd_unanswered_retries (s := s.placing rest) hretries

theorem lostAttempt_exhausts {s : State} (h : ReadyToSend s) (hretries : (s.pr.retriesUsed + 1).toNat = 3) :
    RunsTo (lostAttempt s.params) s s.exhausted :=
  lostAttempt_runsTo h fun rest => sPauseEnd_unanswered_exhausts (s := s.placing rest) hretries

/-- After three unanswered attempts and `S.FINISH`: three transmissions of one frame, the answer, an empty slot
(R160, R161). -/
def State.gaveUp (s : State) : State :=
  { s with
    out := s.out ++ [.tx s.params.peerAddr s.pr.frame, .tx s.params.peerAddr s.pr.frame,
      .tx s.params.peerAddr s.pr.frame, .rsp { Config.freeRsp s.free with status := 0x05, info := 3 }]
    free := s.free + 1
    pr := { s.pr with retriesUsed := s.pr.retriesUsed + 1 + 1 + 1, txPending := false, outcome := .exhausted }
    ws := { s.ws with valid := false, result := .failed }
    pauseKind := false
    timer := 0
    phase := .idle }

theorem sFinish_exhausted (s : State) : sFinish s.retrying.retrying.exhausted = s.gaveUp := by
  simp [sFinish, sReport, State.raise, State.respond, State.exhausted, State.retrying, State.unanswered, State.gaveUp,
    errExhausted, statusCode]

/-- Three unanswered attempts end a `SEND` that has made none yet, and `S.FINISH` follows (R160, R161). -/
theorem lostAttempts_runTo_finish {s : State} (h : ReadyToSend s) (hretries : s.pr.retriesUsed = 0) :
    RunsTo (lostAttempt s.params ++ (lostAttempt s.params ++ (lostAttempt s.params ++ [.run .sender]))) s s.gaveUp := by
  have hfirst := lostAttempt_retries h (by rw [hretries]; decide)
  have hsecond := lostAttempt_retries h.retrying (by rw [State.retrying_retriesUsed, hretries]; decide)
  have hthird := lostAttempt_exhausts h.retrying.retrying
    (by rw [State.retrying_retriesUsed, State.retrying_retriesUsed, hretries]; decide)
  have hfinish : RunsTo [.run .sender] s.retrying.retrying.exhausted (sFinish s.retrying.retrying.exhausted) :=
    .of_senderStep fun _ => senderStep_finishesFailed rfl
  rw [sFinish_exhausted] at hfinish
  exact hfirst.append (hsecond.append (hthird.append hfinish))

theorem count_tick_lostAttempt (p : Config.Params) :
    (lostAttempt p).count .tick = ackTimeoutTicks p + retryPauseTicks p := by
  simp [lostAttempt]

theorem count_tick_lostSend (p : Config.Params) (bytes : Bytes) (isText : Bool) :
    (lostSend p bytes isText).count .tick = 3 * (ackTimeoutTicks p + retryPauseTicks p) := by
  have hends {x : Config.Stimulus} (hx : x ≠ .tick) : [x].count .tick = 0 :=
    List.count_eq_zero.2 (by simpa using hx.symm)
  simp only [lostSend, List.count_append, count_tick_lostAttempt]
  rw [hends (x := .cmd _) nofun, hends (x := .run .sender) nofun]
  omega

/-- A `SEND` that is accepted and that nobody answers, from `S.START` to `S.FINISH` (R163(b)). -/
theorem lostSend_runsTo {s : State} {bytes : Bytes} {isText : Bool} (hfit : buffersFit s.params 0 bytes.length = true)
    (hphase : s.phase = .idle) (hfault : s.cfgFault = false) (hlen : (sendPayload bytes isText).length ≤ 65535) :
    RunsTo (lostSend s.params bytes isText) s
      (sRegister (sBuild (sendPayload bytes isText) (sAlloc s))).gaveUp := by
  have hstart := RunsTo.send hfit hphase hfault hlen
  have hlost := lostAttempts_runTo_finish (s := sRegister (sBuild (sendPayload bytes isText) (sAlloc s)))
    ⟨rfl, rfl, rfl⟩ rfl
  rw [lostSend, List.append_assoc, List.append_assoc, List.append_assoc]
  exact hstart.append hlost

/-- Settles O45: by `lostSend_runsTo`. -/
theorem unansweredSendIsExhausted : Obligations.UnansweredSendIsExhausted := by
  intro s bytes isText rest hsched hphase hfault hfit hlen
  have hrun := lostSend_runsTo hfit hphase hfault hlen rest
  rw [← hsched, State.placing_sched_self] at hrun
  exact ⟨count_tick_lostSend s.params bytes isText, _, _, _, hrun, rfl, rfl, rfl, rfl, rfl, rfl, rfl, rfl,
    rfl, rfl⟩

end Sys2Proof.Machine

/-! ### The steps of a receive context after `X.PARSE` -/

namespace Sys2Proof.Machine

open Sys2Proof

/-- A context that issues a transaction and goes on touches nothing else (R173, R175, R176). -/
theorem State.emit_putContext (s : State) (o : PortOut) (k : Nat) {c : Context} (hc : c.step ≠ .done) :
    (s.emit o).putContext k c = { s with rxc := ((s.emit o).putContext k c).rxc, out := s.out ++ [o] } ∧
      ((s.emit o).putContext k c).context k = some c ∧
      ∀ j, j ≠ k → ((s.emit o).putContext k c).context j = s.context j :=
  ⟨(s.emit o).putContext_eq k c, State.context_putContext_self _ k c hc,
    fun _ hj => State.context_putContext_ne _ c hj⟩

/-- Settles O50: each step is an `emit` and a `putContext`. -/
theorem dataContextsReplyAndDeliver : Obligations.DataContextsReplyAndDeliver := by
  intro v q n p cs s c hc
  have hexec {st : CtxStep} (hst : c.step = st) (hp : st ≠ .parse) :
      exec (.rxData v q n p cs) s = .next (xStep s.cur c s) := exec_wire_of_not_parse rfl hc (hst ▸ hp)
  refine ⟨fun hst => ?_, fun hst => ?_, fun hst => ?_⟩
  · rw [hexec hst nofun, xStep, hst]
    exact ⟨_, rfl, s.emit_putContext _ _ nofun⟩
  · rw [hexec hst nofun, xStep, hst]
    exact ⟨_, rfl, s.emit_putContext _ _ nofun⟩
  · rw [hexec hst nofun, xStep, hst]
    exact ⟨_, rfl, s.emit_putContext _ _ nofun⟩

/-- A new sequence number goes on to be delivered, a known one to be acknowledged again (R174). -/
theorem dataOkStep_eq (known : Bool) :
    (if !known then CtxStep.deliver else .ack) = if known then .ack else .deliver := by
  cases known <;> rfl

/-- What `X.DATA_OK` does, and what it leaves unchanged (R174). -/
theorem xDataOk_eq (k : Nat) (c : Context) (s : State) :
    xDataOk k c s =
      (s.markDelivered c.frame.fields.seq).putContext k
        { c with
          isNew := !s.isDelivered c.frame.fields.seq
          step := if s.isDelivered c.frame.fields.seq then .ack else .deliver } := by
  rw [xDataOk, dataOkStep_eq]

/-- Settles O49: `X.DATA_OK` is a `markDelivered` and a `putContext`. -/
theorem matchedDataIsInsertedOnce : Obligations.MatchedDataIsInsertedOnce := by
  intro v q n p cs s c hc hst
  have hexec : exec (.rxData v q n p cs) s = .next (xDataOk s.cur c s) := by
    rw [exec_wire_of_not_parse rfl hc (by rw [hst]; nofun), xStep, hst]
  rw [xDataOk_eq] at hexec
  refine ⟨_, hexec, ?_, fun b => ?_, State.context_putContext_self _ _ _ ?_,
    fun j hj => State.context_putContext_ne _ _ hj⟩
  · rw [State.putContext_delivered]
    exact State.putContext_eq _ _ _
  · rw [State.isDelivered_putContext, State.isDelivered_markDelivered]
  · cases s.isDelivered c.frame.fields.seq <;> nofun

theorem State.storeReply_eq (s : State) (q : Byte) (r : SlotResult) :
    s.storeReply q r = { s with ws := (s.storeReply q r).ws } := by
  unfold State.storeReply
  split_ifs <;> rfl

theorem State.contextsRising_storeReply {s : State} (h : s.ContextsRising) (q : Byte) (r : SlotResult) :
    (s.storeReply q r).ContextsRising := by
  rw [State.storeReply_eq]
  exact h

/-- What `X.ACKNACK` does, and what it leaves unchanged (R177). -/
theorem xAckNack_eq (k : Nat) (c : Context) (s : State) :
    xAckNack k c s = { s with rxc := (xAckNack k c s).rxc, ws := (xAckNack k c s).ws } := by
  rw [xAckNack, State.storeReply_eq]
  rfl

/-- Settles O52: `X.ACKNACK` is a `storeReply` that ends its context. -/
theorem repliesAreStoredInTheirSlot : Obligations.RepliesAreStoredInTheirSlot := by
  intro v q n p cs s c hrising hc hst
  have hwire {i : Instr} (hi : i.isWire = true) : exec i s = .next (xAckNack s.cur c s) := by
    rw [exec_wire_of_not_parse hi hc (by rw [hst]; nofun), xStep, hst]
  refine ⟨_, fun _ => hwire rfl, fun _ => hwire rfl, xAckNack_eq _ _ _, ?_, fun j hj => ?_,
    State.storeReply_ws_eq _ _ _⟩
  · exact State.context_endContext_self _ _ (State.contextsRising_storeReply hrising _ _)
  · rw [xAckNack, State.storeReply_eq]
    exact State.context_endContext_ne _ hj

end Sys2Proof.Machine

/-! ### No error stops the block -/

namespace Sys2Proof.Machine

open Sys2Proof

/-- A step goes on under the parameters `p`: it answers a next state, or it is refused because a capacity that `p`
makes finite is exceeded (R50, R200, U17). -/
inductive GoesOn (p : Config.Params) : Host.Outcome State Fault Refusal → Prop
  | next (t : State) : GoesOn p (.next t)
  | overCapacity {n m : Nat} (h : buffersFit p n m = false) : GoesOn p (.refused .overCapacity)

theorem GoesOn.ne_fault {p : Config.Params} {o : Host.Outcome State Fault Refusal} (h : GoesOn p o) (f : Fault) :
    o ≠ .fault f := by
  cases h <;> nofun

theorem GoesOn.refused_eq {p : Config.Params} {r : Refusal} (h : GoesOn p (.refused r)) : r = .overCapacity := by
  cases h
  rfl

/-- Unbounded capacities are never exceeded. -/
theorem GoesOn.exists_next {p : Config.Params} {o : Host.Outcome State Fault Refusal} (h : GoesOn p o)
    (hbits : p.bitsMax = none) (hbytes : p.bytesMax = none) : ∃ t, o = .next t := by
  cases h with
  | next t => exact ⟨t, rfl⟩
  | overCapacity hfit => cases hfit.symm.trans (buffersFit_of_none hbits hbytes _ _)

/-- What is done when its buffers fit, and refused otherwise, goes on. -/
theorem GoesOn.of_fits {p : Config.Params} {n m : Nat} {o : Host.Outcome State Fault Refusal} (h : GoesOn p o) :
    GoesOn p (if buffersFit p n m then o else .refused .overCapacity) := by
  cases hfit : buffersFit p n m with
  | true => exact h
  | false => exact .overCapacity hfit

/-- A pure operation ends with its results or with its error, and `pureOp` stops it for its buffers alone. -/
theorem pureOp_goesOn (s : State) (n m : Nat) (w : Work) (r : Except Err (Rsp → Rsp)) :
    GoesOn s.params (pureOp s n m w r) := by
  cases r with
  | error e => exact .of_fits (.next _)
  | ok fill => exact .of_fits (.of_fits (.next _))

/-- `DIVTRC` is a pure operation where it exists, and answers `BadOp` elsewhere (R115, R207). -/
theorem execDivtrc_goesOn (gen msg : Bits) (s : State) : GoesOn s.params (execDivtrc gen msg s) := by
  unfold execDivtrc
  split_ifs
  · exact pureOp_goesOn _ _ _ _ _
  · exact .next _

theorem exec_host_goesOn {i : Instr} (hwire : i.isWire = false) (s : State) : GoesOn s.params (exec i s) := by
  cases i with
  | divtrc gen msg => exact execDivtrc_goesOn gen msg s
  | send bytes isText => exact .of_fits (.next _)
  | rxData | rxAck | rxNack => cases hwire
  | bytes2b | b2bytes | classify | txt2pay => exact pureOp_goesOn _ _ _ _ (.ok _)
  | crcreg | crcdiv | crcenc | crcvfy | blddata | bldack | parse => exact pureOp_goesOn _ _ _ _ _

/-- What a command decodes to: a host operation, and only for a selector of the table of R84. -/
theorem decodeCmd_ok {c : Cmd} {i : Instr} (h : decodeCmd c = .ok i) :
    c.op.toNat ≤ 0x0C ∧ i.isWire = false := by
  unfold decodeCmd at h
  split at h <;> cases h <;> exact ⟨by omega, rfl⟩

theorem takeCommand_goesOn (c : Cmd) (s : State) : GoesOn s.params (takeCommand c s) := by
  unfold takeCommand
  split
  · next i hi => exact exec_host_goesOn (decodeCmd_ok hi).2 s
  · exact .next _

theorem takeMessage_goesOn (m : Bytes) (peer : Addr) (s : State) : GoesOn s.params (takeMessage m peer s) := by
  have hbytes : within s.params.bytesMax m.length = buffersFit s.params 0 m.length := by
    have hbits : within s.params.bitsMax 0 = true := within_iff.2 fun k _ => Nat.zero_le k
    rw [buffersFit, hbits, Bool.true_and]
  rw [takeMessage, hbytes]
  exact .of_fits (.next _)

/-- A wire operation runs only in the context that holds its frame, so it never lacks one (R171). -/
theorem contextStep_answers (k : Nat) (s : State) : ∃ t, contextStep k s = .next t := by
  unfold contextStep
  cases hc : s.context k with
  | none => exact ⟨_, rfl⟩
  | some c =>
    simp only
    split_ifs with hp
    · cases hd : decodeMessage c.bytes with
      | error e => exact ⟨_, rfl⟩
      | ok i =>
        unfold decodeMessage at hd
        split at hd
        · cases hd
        · next f hf =>
          exact ⟨_, (exec_selectWire hd _).trans (wireOp_next.2 ⟨c, hc, rfl⟩)⟩
    · exact ⟨_, rfl⟩

theorem takeStimulus_goesOn (x : Config.Stimulus) (s : State) : GoesOn s.params (takeStimulus x s) := by
  cases x with
  | cmd c => exact takeCommand_goesOn c s
  | rx m peer => exact takeMessage_goesOn m peer s
  | txs target ok => rcases target with _ | _ | k <;> exact .next _
  | tick => exact .next _
  | rst p => exact .next _
  | run a =>
    cases a with
    | sender => exact .next _
    | context k =>
      obtain ⟨t, ht⟩ := contextStep_answers k s
      rw [takeStimulus, ht]
      exact .next t

theorem step_goesOn (s : State) : GoesOn s.params (step s) := by
  have h := takeStimulus_goesOn s.nextStimulus s.popStimulus
  rwa [State.popStimulus_params] at h

/-- Settles O32: every step goes on, by the stimulus it takes. -/
theorem stepAlwaysGoesOn : Obligations.StepAlwaysGoesOn := by
  refine ⟨fun s => (step_goesOn s).ne_fault, fun s r hr => ?_, fun s => (step_goesOn s).exists_next⟩
  have h := step_goesOn s
  rw [hr] at h
  exact h.refused_eq

/-! ### Selectors that name no operation -/

theorem takeCommand_of_reserved {c : Cmd} (h : 0x0D ≤ c.op.toNat) (s : State) :
    takeCommand c s = .next (s.raise errBadOp) := by
  unfold takeCommand
  split
  · next i hi => exact absurd (decodeCmd_ok hi).1 (Nat.not_le_of_lt h)
  · rfl

/-- The selector of `DIVTRC` (R84). -/
theorem decodeCmd_divtrc {c : Cmd} (h : c.op = 0x04) : decodeCmd c = .ok (.divtrc c.gen c.bits) := by
  unfold decodeCmd
  rw [h]
  rfl

/-- Where `HAS_TRACE` is false `DIVTRC` is `BadOp`, before any capacity is looked at (R207, R210; log entry 18). -/
theorem execDivtrc_of_no_trace {s : State} (h : s.params.hasTrace = false) (gen msg : Bits) :
    execDivtrc gen msg s = .next (s.raise errBadOp) :=
  if_neg (Bool.eq_false_iff.1 h)

theorem takeCommand_divtrc_of_no_trace {c : Cmd} {s : State} (hop : c.op = 0x04)
    (htrace : s.params.hasTrace = false) : takeCommand c s = .next (s.raise errBadOp) := by
  rw [takeCommand_of_decode (decodeCmd_divtrc hop)]
  exact execDivtrc_of_no_trace htrace _ _

/-- Settles O7: `BadOp` is raised, which issues its `RSP` and changes no register (R200). -/
theorem reservedSelectorAnswersBadOp : Obligations.ReservedSelectorAnswersBadOp := by
  intro s c hs hop
  have hbad : takeCommand c s.popStimulus = .next (s.popStimulus.raise errBadOp) := by
    rcases hop with hreserved | ⟨hdivtrc, htrace⟩
    · exact takeCommand_of_reserved hreserved _
    · exact takeCommand_divtrc_of_no_trace hdivtrc (by simpa using htrace)
  rw [step_cmd hs, hbad, State.raise_eq_afterRsp]
  exact ⟨_, rfl, rfl, rfl⟩

end Sys2Proof.Machine

/-! ### Answers that no agent awaits, and reset (R230 to R232, U20) -/

namespace Sys2Proof.Machine

open Sys2Proof

theorem step_txs_none {s : State} {ok : Bool} (h : s.nextStimulus = .txs none ok) : step s = .next s.popStimulus := by
  rw [step, h]; rfl

/-- Without a request of `SENDER` pending in `Sending` the guard of `S.TXS` is false (R157). -/
theorem senderTxs_unawaited {s : State} (h : s.phase ≠ .sending ∨ s.pr.txPending = false) (ok : Bool) :
    senderTxs ok s = s := by
  refine if_neg fun ⟨hphase, hpending⟩ => ?_
  rcases h with hne | hfalse
  · exact hne hphase
  · exact Bool.eq_false_iff.1 hfalse hpending

/-- No context `k`, or one in a step other than the two waits: no guard of `X.NACK_TXS` or `X.ACK_TXS` holds (R173,
R176). -/
theorem contextTxs_unawaited {s : State} {k : Nat}
    (h : ∀ c, s.context k = some c → c.step ≠ .nackWait ∧ c.step ≠ .ackWait) (ok : Bool) : contextTxs k ok s = s := by
  unfold contextTxs
  split
  · rfl
  · next c hc =>
    obtain ⟨hnack, hack⟩ := h c hc
    split
    · next hw => exact absurd hw hnack
    · next hw => exact absurd hw hack
    all_goals rfl

/-- Settles O56: by the agent the answer is for, `senderTxs_unawaited` or `contextTxs_unawaited`. -/
theorem unawaitedAnswersDiscarded : Obligations.UnawaitedAnswersDiscarded := by
  intro s target ok hs hsender hcontext
  rcases target with _ | _ | k
  · exact step_txs_none hs
  · have hun : s.popStimulus.phase ≠ .sending ∨ s.popStimulus.pr.txPending = false := by simpa using hsender rfl
    rw [step_txs_sender hs, senderTxs_unawaited hun]
  · have hun : ∀ c, s.popStimulus.context k = some c → c.step ≠ .nackWait ∧ c.step ≠ .ackWait := by
      simpa using fun c => hcontext k c rfl
    rw [step_txs_context hs, contextTxs_unawaited hun]

theorem step_rst {s : State} {p : Config.Params} (h : s.nextStimulus = .rst p) :
    step s = .next (s.popStimulus.zReset p) := by
  rw [step, h]; rfl

/-- Settles O58: the step is `Z.RESET`; what it leaves in each register is a `State.zReset_*` law. -/
theorem resetStepClearsEverything : Obligations.ResetStepClearsEverything := by
  intro s p hs
  have hfault : (s.popStimulus.zReset p).cfgFault = true ↔ p.gen.length < 1 ∨ 8 < p.gen.length := by
    rw [State.zReset_cfgFault, decide_eq_true_iff]
  have hout : (s.popStimulus.zReset p).out = s.out := by rw [State.zReset_out, State.popStimulus_out]
  exact ⟨_, step_rst hs, State.zReset_params _ p, State.zReset_cfgGen _ p, hfault, State.zReset_seqCtr _ p,
    State.zReset_ws_valid _ p, State.zReset_phase _ p, State.zReset_timer _ p, State.zReset_delivered _ p,
    State.zReset_rxc _ p, hout⟩

end Sys2Proof.Machine
